-- ==== Sys2Proof/Word.lean ====
section
/-! DEFINITION. The widths of the block's values: spec/00_scope.md R3 and R4, spec/10_state.md R10, spec/30_encoding.md R51, R60. -/

namespace Sys2Proof

/-- A byte: eight bits, unsigned (R4). -/
abbrev Byte := BitVec 8

/-- A status: signed two's complement of `STATUS_W` = 32 bits (R3, R60). -/
abbrev Status := BitVec 32

/-- The `acc` register: `ACC_W` = 9 bits (R3, R12). -/
abbrev Acc := BitVec 9

/-- SEND's `count`, and `tx_off`, `tx_rem`: `COUNT_W` = 16 bits (R3, R17). -/
abbrev Count := BitVec 16

/-- The `next_read_size` output: `NRS_W` = 8 bits (R3, R20). -/
abbrev ReadSize := BitVec 8

/-- A value the block passes on unread: `port`, `baudrate`, `context`, the transport handle, `bytes_transferred`
(R18, R53, R58). The spec gives these no width; 32 bits is a DESIGN CHOICE, notes/assumptions/8.md. -/
abbrev Token := BitVec 32

/-- The sticky cause in the `fault` register (R14): four causes, two bits; `Machine.causeCode` gives the numbers. -/
inductive Cause where
  | none
  | framingOverflow
  | packetOverrun
  | transportReadFail
  deriving DecidableEq, Repr, Inhabited

end Sys2Proof
end

