-- ==== Sys2Proof/Config.lean ====
section
/-! DEFINITION. What an implementation fixes (spec/00_scope.md R2, R3) and the free values: constants with no body, so that
nothing can prove a value of one and a claim holds whatever it is. -/

namespace Sys2Proof

/-- `HDR_SIZE`: "header is always 2 bytes (type, length)" (R2). -/
@[simp] abbrev Config.hdrSize : Nat := 2

/-- `MAX_PAYLOAD` (R2). -/
@[simp] abbrev Config.maxPayload : Nat := 254

/-- `CAP = HDR_SIZE + MAX_PAYLOAD`, the size of the reassembly buffer (R2). -/
@[simp] abbrev Config.cap : Nat := 256

/-- `RX_N_MAX`: the largest delivery (R3). -/
@[simp] abbrev Config.rxNMax : Nat := 511

/-- `OK`: the result the core generates for success (R3, R60). -/
abbrev Config.ok : Status := 0#32

/-- `ERR`: the result the core generates for a failure it detects itself, -1 (R3, R60). -/
abbrev Config.err : Status := 0xFFFFFFFF#32

/-- `N_DEVICES` at reset. OPEN in the spec (R3); two is a DESIGN CHOICE, notes/assumptions/1.md. -/
abbrev Config.nDevices : Nat := 2

/-- The key of a free value: the device whose value it is, and how many that device has taken before. From reset two devices, or two
takings of one device, have different keys, and no free value is tied to another (R44, R54; notes/assumptions/4.md
and 14.md). -/
structure FreeKey where
  device : Nat
  count  : Nat
  deriving DecidableEq, Repr

/-- The device's key after a free value has been taken. -/
def FreeKey.next (key : FreeKey) : FreeKey := { key with count := key.count + 1 }

/-! Registers the spec leaves unspecified (R22): notes/assumptions/4.md. -/

/-- `acc` of a closed device, within its range 0 to 256 (R10, R22). -/
opaque Config.freeAcc : FreeKey → Fin 257

/-- `fault` of a closed device (R22). -/
opaque Config.freeCause : FreeKey → Cause

/-- The byte of `RBUF` at an offset, of a closed device (R22). -/
opaque Config.freeBufferByte : FreeKey → Nat → Byte

/-- `tx_type` after OPEN and after CLOSE (R22). -/
opaque Config.freeTxType : FreeKey → Byte

/-- `tx_off` after OPEN and after CLOSE (R22). -/
opaque Config.freeTxOff : FreeKey → Count

/-- `tx_rem` after OPEN and after CLOSE (R22). -/
opaque Config.freeTxRem : FreeKey → Count

/-- What the handle, the port, the baudrate and the context of a closed device hold: the software has freed them (R123). -/
opaque Config.freeToken : FreeKey → Nat → Token

/-- `next_read_size` where R20's formula has no meaning, past the end of a frame (R13, R68). -/
opaque Config.freeReadSize : FreeKey → ReadSize

/-! Answers of the environment where the state's list of answers has run out (R54): notes/assumptions/3.md. -/

/-- A handler's status. -/
opaque Config.freeStatus : FreeKey → Status

/-- Whether TX_WRITE is accepted. -/
opaque Config.freeAccepted : FreeKey → Bool

/-- How many bytes of a chunk whose write failed reached the wire (R105). -/
opaque Config.freeSent : FreeKey → Nat

/-- T_OPEN's answer: a handle, or failure. -/
opaque Config.freeTOpen : FreeKey → Option Token

/-- Whether the device state can be allocated (R122). -/
opaque Config.freeAlloc : FreeKey → Bool

/-- Whether the callbacks can be installed and the readiness source registered (R122). -/
opaque Config.freeInstall : FreeKey → Bool

end Sys2Proof
end

