-- ==== Sys2Proof/Syntax.lean ====
section
/-! DEFINITION. The rows of spec/opcode_table.json, one constructor each, and the raw record in which a request for one
arrives. Operands: spec/30_encoding.md R50 to R59. -/

namespace Sys2Proof

/-- The two forms of SEND: the atomic one (R100) and the start step of the stepwise one (R110). -/
inductive SendForm where
  | atomic
  | start
  deriving DecidableEq, Repr

/-- One row of the opcode table with its operands. `dev` numbers the device the row is for (R44, R164). -/
inductive Instr where
  /-- FRAME: a frame of the wire format arrives on the device's line; its length byte is the length of `value` (R50). -/
  | frame (dev : Nat) (type : Byte) (value : List Byte)
  /-- FRAME_RSVD_L255: a header with the reserved length 255 arrives, and the bytes that follow it (R64). -/
  | frameRsvdL255 (dev : Nat) (type : Byte) (value : List Byte)
  /-- OPEN, with the presence of the two registration hooks (R120, R121). -/
  | openDevice (dev : Nat) (addSource removeSource : Bool) (port baudrate context : Token)
  /-- CLOSE (R123). -/
  | close (dev : Nat)
  /-- DELIVER (R70). -/
  | deliver (dev : Nat) (d : List Byte)
  /-- DELIVER_FAIL (R80). -/
  | deliverFail (dev : Nat)
  /-- SEND; `data` empty is `data` unset (R36, R100, R110). -/
  | send (dev : Nat) (form : SendForm) (type : Byte) (count : Count) (data : List Byte)
  /-- WRITE_COMPLETE (R125). -/
  | writeComplete (dev : Nat) (bytesTransferred : Token)
  /-- TRANSPORT_CLOSE (R126). -/
  | transportClose (dev : Nat)
  /-- ON_READ: its record is read from `RBUF` (R59). -/
  | onRead (dev : Nat)
  /-- SET_READ_SIZE: its record is `next_read_size` (R56). -/
  | setReadSize (dev : Nat)
  /-- TX_WRITE: its record is the next packet of the SEND in progress (R57, R110). -/
  | txWrite (dev : Nat)
  /-- ON_WRITE_COMPLETE (R125). -/
  | onWriteComplete (dev : Nat) (bytesTransferred : Token)
  /-- ON_CLOSE (R126). -/
  | onClose (dev : Nat)
  /-- T_OPEN (R120). -/
  | tOpen (dev : Nat) (port baudrate : Token)
  /-- T_CLOSE (R123). -/
  | tClose (dev : Nat)
  deriving DecidableEq, Repr

/-- Where a request arrives: at the operation port, or on the inbound line of a device (the two spaces of the table). -/
inductive Port where
  | operation
  | line (dev : Nat)
  deriving DecidableEq, Repr

/-- A request before it is decoded: the raw bytes of one record. -/
structure Request where
  port  : Port
  bytes : List Byte
  deriving DecidableEq, Repr

/-- Why a request is no instruction. -/
inductive DecodeError where
  /-- The record's length does not fit its contents. -/
  | badLength
  /-- Code 0x7 or 0xF, which selects no operation (R61). -/
  | unusedCode
  /-- A bit the record layout reserves is set. -/
  | reservedBits
  /-- A delivery longer than `RX_N_MAX` (R53). -/
  | deliveryTooLong
  deriving DecidableEq, Repr

end Sys2Proof
end

