-- ==== Sys2Proof/WellFormed.lean ====
section
/-! DEFINITION. The instructions whose operands lie in the ranges the spec gives (spec/30_encoding.md R50, R53, R62, R64). -/

namespace Sys2Proof

/-- The device number fits the record's one byte (notes/assumptions/5.md). -/
def devFits (dev : Nat) : Bool := decide (dev < 256)

/-- Operands in range: a frame's value has at most 254 bytes (R50), a reserved frame exactly 255 (R64), a delivery at most
`RX_N_MAX` (R53), SEND's data at most what a 16-bit count can name (R53). SEND's `count` may exceed its data: that is the
breach of R113, which the meaning refuses. -/
def Instr.wellFormed : Instr → Bool
  | .frame dev _ value => devFits dev && decide (value.length ≤ Config.maxPayload)
  | .frameRsvdL255 dev _ value => devFits dev && decide (value.length = 255)
  | .openDevice dev _ _ _ _ _ => devFits dev
  | .close dev => devFits dev
  | .deliver dev d => devFits dev && decide (d.length ≤ Config.rxNMax)
  | .deliverFail dev => devFits dev
  | .send dev _ _ _ data => devFits dev && decide (data.length < 65536)
  | .writeComplete dev _ => devFits dev
  | .transportClose dev => devFits dev
  | .onRead dev => devFits dev
  | .setReadSize dev => devFits dev
  | .txWrite dev => devFits dev
  | .onWriteComplete dev _ => devFits dev
  | .onClose dev => devFits dev
  | .tOpen dev _ _ => devFits dev
  | .tClose dev => devFits dev

end Sys2Proof
end

