-- ==== Sys2Proof/Decode.lean ====
section
/-! DEFINITION. From the raw bytes of a request to an instruction, total and rejecting by name, and the encoder.
The wire frame is the spec's (spec/30_encoding.md R50, R52, R63, R64). Of an operation's record the spec gives the 4-bit
code alone (R61); where the code, the device and the operands lie in the record is the model's: notes/assumptions/5.md. -/

namespace Sys2Proof

/-! Bit fields and byte order -/

/-- Two bytes as a 16-bit value, the first more significant. -/
def word16 (hi lo : Byte) : BitVec 16 := BitVec.ofNat 16 (hi.toNat * 256 + lo.toNat)

/-- Four bytes as a 32-bit value, the first more significant. -/
def word32 (b3 b2 b1 b0 : Byte) : Token :=
  BitVec.ofNat 32 (b3.toNat * 16777216 + b2.toNat * 65536 + b1.toNat * 256 + b0.toNat)

/-- The bytes of a 16-bit value, the more significant first. -/
def bytes16 (v : BitVec 16) : List Byte := [v.extractLsb' 8 8, v.extractLsb' 0 8]

/-- The bytes of a 32-bit value, the most significant first. -/
def bytes32 (v : Token) : List Byte :=
  [v.extractLsb' 24 8, v.extractLsb' 16 8, v.extractLsb' 8 8, v.extractLsb' 0 8]

/-- The header word `H = type ‖ length` of the tables (R52). -/
def headerWord (type length : Byte) : BitVec 16 := word16 type length

/-- `H[15:8]` (R52). -/
def headerType (h : BitVec 16) : Byte := h.extractLsb' 8 8

/-- `H[7:0]` (R52). -/
def headerLength (h : BitVec 16) : Byte := h.extractLsb' 0 8

/-! Decoding -/

/-- A frame on the line: `type`, `length`, then exactly `length` bytes (R50, R63); the reserved length is tested first (R64). -/
def decodeFrame (dev : Nat) : List Byte → Except DecodeError Instr
  | type :: length :: value =>
    if value.length ≠ length.toNat then .error .badLength
    else if length = 0xFF#8 then .ok (.frameRsvdL255 dev type value)
    else .ok (.frame dev type value)
  | _ => .error .badLength

/-- OPEN's operands: the two hooks' absence, then port, baudrate and context. -/
def decodeOpen (dev : Nat) : List Byte → Except DecodeError Instr
  | [h, p3, p2, p1, p0, b3, b2, b1, b0, c3, c2, c1, c0] =>
    if 4 ≤ h.toNat then .error .reservedBits
    else .ok (.openDevice dev (!h.getLsbD 0) (!h.getLsbD 1) (word32 p3 p2 p1 p0) (word32 b3 b2 b1 b0) (word32 c3 c2 c1 c0))
  | _ => .error .badLength

/-- DELIVER's operands: `n` in two bytes, then the `n` bytes of `d` (R53, R55). -/
def decodeDeliver (dev : Nat) : List Byte → Except DecodeError Instr
  | n1 :: n0 :: d =>
    if d.length ≠ (word16 n1 n0).toNat then .error .badLength
    else if Config.rxNMax < d.length then .error .deliveryTooLong
    else .ok (.deliver dev d)
  | _ => .error .badLength

/-- SEND's operands: the form, `type`, `count`, the number of readable bytes at `data`, and these bytes (R53). -/
def decodeSend (dev : Nat) : List Byte → Except DecodeError Instr
  | f :: type :: c1 :: c0 :: n1 :: n0 :: data =>
    if data.length ≠ (word16 n1 n0).toNat then .error .badLength
    else if f = 0#8 then .ok (.send dev .atomic type (word16 c1 c0) data)
    else if f = 1#8 then .ok (.send dev .start type (word16 c1 c0) data)
    else .error .reservedBits
  | _ => .error .badLength

/-- `bytes_transferred` in four bytes. -/
def decodeCompletion (mk : Token → Instr) : List Byte → Except DecodeError Instr
  | [k3, k2, k1, k0] => .ok (mk (word32 k3 k2 k1 k0))
  | _ => .error .badLength

/-- T_OPEN's operands: port, then baudrate. -/
def decodeTOpen (dev : Nat) : List Byte → Except DecodeError Instr
  | [p3, p2, p1, p0, b3, b2, b1, b0] => .ok (.tOpen dev (word32 p3 p2 p1 p0) (word32 b3 b2 b1 b0))
  | _ => .error .badLength

/-- No operands. -/
def decodeBare (i : Instr) : List Byte → Except DecodeError Instr
  | [] => .ok i
  | _ => .error .badLength

/-- The operation-select codes `op[3:0]` (R61). -/
def decodeCode (code : BitVec 4) (dev : Nat) (operands : List Byte) : Except DecodeError Instr :=
  match code.toNat with
  | 0x0 => decodeOpen dev operands
  | 0x1 => decodeBare (.close dev) operands
  | 0x2 => decodeDeliver dev operands
  | 0x3 => decodeBare (.deliverFail dev) operands
  | 0x4 => decodeSend dev operands
  | 0x5 => decodeCompletion (.writeComplete dev) operands
  | 0x6 => decodeBare (.transportClose dev) operands
  | 0x8 => decodeBare (.onRead dev) operands
  | 0x9 => decodeBare (.setReadSize dev) operands
  | 0xA => decodeBare (.txWrite dev) operands
  | 0xB => decodeCompletion (.onWriteComplete dev) operands
  | 0xC => decodeBare (.onClose dev) operands
  | 0xD => decodeTOpen dev operands
  | 0xE => decodeBare (.tClose dev) operands
  | _ => .error .unusedCode

/-- An operation's record: a byte whose low four bits are the code and whose high four are 0, the device, the operands. -/
def decodeOperation : List Byte → Except DecodeError Instr
  | op :: dev :: operands =>
    if op.extractLsb' 4 4 ≠ 0#4 then .error .reservedBits
    else decodeCode (op.extractLsb' 0 4) dev.toNat operands
  | _ => .error .badLength

/-- The instruction a request stands for. -/
def decode (r : Request) : Except DecodeError Instr :=
  match r.port with
  | .operation => decodeOperation r.bytes
  | .line dev => if 256 ≤ dev then .error .reservedBits else decodeFrame dev r.bytes

/-! Encoding -/

/-- A natural number as one byte. -/
def byteOf (n : Nat) : Byte := BitVec.ofNat 8 n

/-- The record of an operation. -/
def operationRecord (code : BitVec 4) (dev : Nat) (operands : List Byte) : Request :=
  { port := .operation, bytes := (0#4 ++ code : BitVec 8) :: byteOf dev :: operands }

/-- The hooks of OPEN as a byte: bit 0 set if `add_source` is absent, bit 1 if `remove_source` is. -/
def hooksByte (addSource removeSource : Bool) : Byte :=
  (if addSource then 0#8 else 1#8) ||| (if removeSource then 0#8 else 2#8)

/-- The form of SEND as a byte. -/
def sendFormByte : SendForm → Byte
  | .atomic => 0#8
  | .start => 1#8

/-- The bytes `[type, length] ++ value` of a frame (R50, R67 FRAME). -/
def frameBytes (type : Byte) (value : List Byte) : List Byte := type :: byteOf value.length :: value

/-- The request that stands for an instruction. -/
def encode : Instr → Request
  | .frame dev type value => { port := .line dev, bytes := frameBytes type value }
  | .frameRsvdL255 dev type value => { port := .line dev, bytes := type :: 0xFF#8 :: value }
  | .openDevice dev add remove port baudrate context =>
    operationRecord 0x0#4 dev (hooksByte add remove :: (bytes32 port ++ bytes32 baudrate ++ bytes32 context))
  | .close dev => operationRecord 0x1#4 dev []
  | .deliver dev d => operationRecord 0x2#4 dev (bytes16 (BitVec.ofNat 16 d.length) ++ d)
  | .deliverFail dev => operationRecord 0x3#4 dev []
  | .send dev form type count data =>
    operationRecord 0x4#4 dev
      (sendFormByte form :: type :: (bytes16 count ++ bytes16 (BitVec.ofNat 16 data.length) ++ data))
  | .writeComplete dev k => operationRecord 0x5#4 dev (bytes32 k)
  | .transportClose dev => operationRecord 0x6#4 dev []
  | .onRead dev => operationRecord 0x8#4 dev []
  | .setReadSize dev => operationRecord 0x9#4 dev []
  | .txWrite dev => operationRecord 0xA#4 dev []
  | .onWriteComplete dev k => operationRecord 0xB#4 dev (bytes32 k)
  | .onClose dev => operationRecord 0xC#4 dev []
  | .tOpen dev port baudrate => operationRecord 0xD#4 dev (bytes32 port ++ bytes32 baudrate)
  | .tClose dev => operationRecord 0xE#4 dev []

/-! The table's words -/

/-- How many operand bytes, all zero, follow the code and the device of a record with no data. -/
def zeroOperands (code : Nat) : Nat :=
  match code with
  | 0x0 => 13
  | 0x2 => 2
  | 0x4 => 6
  | 0x5 => 4
  | 0xB => 4
  | 0xD => 8
  | _ => 0

/-- The request of a table row's word, every bit above the table's 0. A word of at most 8 bits is an operation-select
code, of device 0; a word of 9 to 16 bits is the header word `H`, on the line of device 0, `type` = `H[15:8]` first (R52),
and the `length` bytes of its value are 0. The table has no wider row. -/
def tableRequest (nbits w : Nat) : Request :=
  if nbits ≤ 8 then
    { port := .operation, bytes := byteOf w :: 0#8 :: List.replicate (zeroOperands w) 0#8 }
  else if nbits ≤ 16 then
    { port := .line 0
      bytes := headerType (BitVec.ofNat 16 w) :: headerLength (BitVec.ofNat 16 w) ::
        List.replicate (headerLength (BitVec.ofNat 16 w)).toNat 0#8 }
  else { port := .operation, bytes := [] }

/-- The instruction the decoder reads from a table row's word. -/
def decodeTableWord (nbits w : Nat) : Option Instr :=
  match decode (tableRequest nbits w) with
  | .ok i => some i
  | .error _ => none

end Sys2Proof
end

