-- ==== Sys2Proof/Machine/State.lean ====
section
/-! DEFINITION. The state of the block (spec/10_state.md), plain data, and the state at power-on (R22, R171).
INVENTORY.md lists every field with its rule and its reset value. -/

namespace Sys2Proof.Machine

/-- `RBUF`, the reassembly buffer: 256 bytes, offsets 0 to 255 (R11, R30). An offset that is not listed holds 0, which is
what OPEN leaves in every byte. The form is canonical: `Memory.wf`. -/
abbrev Memory := List Host.Cell

/-- An operation the caller invokes from inside a handler (R54, R162, R183): OPEN, CLOSE or SEND, on any device. -/
inductive CallerCall where
  | openDevice (dev : Nat) (addSource removeSource : Bool) (port baudrate context : Token)
  | close (dev : Nat)
  | send (dev : Nat) (form : SendForm) (type : Byte) (count : Count) (data : List Byte)
  deriving DecidableEq, Repr

/-- A handler's answer: its status (R60), and the operations it invokes before it returns, in order (R162). -/
structure HandlerAnswer where
  status : Status
  calls  : List CallerCall
  deriving DecidableEq, Repr

/-- The transport's answer to TX_WRITE (R57). After a failure, how many bytes of the chunk reached the wire is the
transport's affair (R105), so it is part of the answer. -/
inductive WriteAnswer where
  | accepted
  | failure (sent : Nat)
  deriving DecidableEq, Repr

/-- An outbound transaction with its answer (R54), or the result of an operation that a handler invoked (R152). -/
inductive Event where
  | onRead (context : Token) (type length : Byte) (value : List Byte) (status : Status)
  | setReadSize (n : ReadSize)
  | txWrite (bytes : List Byte) (accepted : Bool)
  | onWriteComplete (context bytesTransferred : Token) (status : Status)
  | onClose (context : Token) (status : Status)
  | tOpen (port baudrate : Token) (handle : Option Token)
  | tClose
  | returned (result : Option Status)
  deriving DecidableEq, Repr

/-- The receive datapath (R10 to R16), and `RXS` as far as it has been delivered (R30). -/
structure Rx where
  acc   : Acc
  fault : Cause
  rbuf  : Memory
  rxs   : List Byte
  deriving DecidableEq, Repr

/-- The transmit datapath: the registers of the stepwise form (R17), the `SDATA` of the SEND in progress (R36), `TXS` (R30). -/
structure Tx where
  busy  : Bool
  type  : Byte
  off   : Count
  rem   : Count
  sdata : List Byte
  txs   : List Byte
  deriving DecidableEq, Repr

/-- What OPEN binds and the block never changes (R18): the transport handle, the port and baudrate it was opened with, and
the caller's context. -/
structure Binding where
  handle   : Token
  port     : Token
  baudrate : Token
  context  : Token
  deriving DecidableEq, Repr

/-- The environment's answers still to come, one list a port, consumed in order (R54). -/
structure Env where
  onRead          : List HandlerAnswer
  onWriteComplete : List HandlerAnswer
  onClose         : List HandlerAnswer
  txWrite         : List WriteAnswer
  tOpen           : List (Option Token)
  alloc           : List Bool
  install         : List Bool
  deriving DecidableEq, Repr

/-- One device instance (R10, R44). `result` is that of the last operation that reported one; that a step which reports none
keeps it, and SEND_START clears it, is the model's choice (notes/assumptions/12.md). `trace`, `env` and `fresh` are the
model's own: the transactions made so far, the answers to come, and the key of its next free value (notes/assumptions/3.md
and 4.md). -/
structure Device where
  isOpen  : Bool
  rx      : Rx
  tx      : Tx
  binding : Binding
  result  : Option Status
  trace   : List Event
  env     : Env
  fresh   : FreeKey
  deriving DecidableEq, Repr

/-- The machine: the device instances, and the requests that wait in the transport and the event loop (R161). -/
structure State where
  devices : List Device
  inbox   : List Request
  deriving DecidableEq, Repr

/-- Why the machine stops. -/
inductive Fault where
  /-- Raised by the hand-over of a packet that would read an offset of `RBUF` at or above 256, which does not exist
  (R11, R30). It needs `acc` = 257, which no run reaches (R12). Safe. -/
  | bufferOffset
  deriving DecidableEq, Repr

/-- Why the model gives a request no step. Each is safe: no claim is made about a run that holds one. -/
inductive Refusal where
  /-- Raised by exec for an instruction that has no meaning yet. Safe. -/
  | notModelled (mnemonic : String)
  /-- Raised by step for a request that is no instruction (R61 for an unused code). Safe. -/
  | undecodable (why : DecodeError)
  /-- Raised by every operation on a device number at or above `N_DEVICES` (R3). Safe. -/
  | noSuchDevice
  /-- Raised by every operation and transaction but OPEN, T_OPEN and T_CLOSE on a closed device (R128). Safe. -/
  | deviceClosed
  /-- Raised by OPEN and T_OPEN on an open device (R128). Safe. -/
  | deviceOpen
  /-- Raised by SEND while a SEND is in progress: the caller waits (R112). Safe. -/
  | senderBusy
  /-- Raised by TX_WRITE while no SEND is in progress (R110). Safe. -/
  | senderIdle
  /-- Raised by SEND, and by TX_WRITE, without the readable bytes that `count` names (R113). Safe. -/
  | sendDataMissing
  /-- Raised when a handler inside ON_READ closes its own device (R183). Safe. -/
  | closeInsideOnRead
  /-- Raised by ON_READ outside PacketReady, the one state in which the block makes it (R77). Safe. -/
  | packetNotReady
  /-- Raised by SET_READ_SIZE outside AwaitingHeader and AwaitingPayload, the states in which the block makes it (R81). Safe. -/
  | requestNotDue
  deriving DecidableEq, Repr

/-- The derived state of the receive machine (R13). `overrun` is the case `acc ≥ 2`, `acc - 2 > RBUF[1]`, "not a state of the
source's machine". -/
inductive RxState where
  | closed
  | faulted
  | awaitingHeader
  | awaitingPayload
  | packetReady
  | overrun
  deriving DecidableEq, Repr

/-- No answer is listed. -/
def Env.silent : Env :=
  { onRead := [], onWriteComplete := [], onClose := [], txWrite := [], tOpen := [], alloc := [], install := [] }

/-- Device `k` after power-on: Closed, `acc` = 0, `fault` = 0, `tx_busy` = 0 (R22, R171). The spec leaves the other values
unspecified; the zeros are DESIGN CHOICEs, notes/assumptions/2.md. -/
def Device.powerOn (k : Nat) : Device :=
  { isOpen := false
    rx := { acc := 0#9, fault := .none, rbuf := [], rxs := [] }
    tx := { busy := false, type := 0#8, off := 0#16, rem := 0#16, sdata := [], txs := [] }
    binding := { handle := 0#32, port := 0#32, baudrate := 0#32, context := 0#32 }
    result := none
    trace := []
    env := Env.silent
    fresh := { device := k, count := 0 } }

/-- The machine right after reset: every instance as at power-on (R171), no request waiting. -/
def State.reset : State :=
  { devices := (List.range Config.nDevices).map Device.powerOn, inbox := [] }

end Sys2Proof.Machine
end

