-- ==== Sys2Proof/Machine/Ops.lean ====
section
/-! DEFINITION. The named operations over memory, registers and devices, outbound transactions, and taking a fault. -/

namespace Sys2Proof.Machine

/-- What a step, or a part of one, ends in. -/
abbrev Result := Host.Outcome State Fault Refusal

/-- Go on from a next state; a fault or a refusal ends the step. -/
def andThen (r : Result) (f : State → Result) : Result :=
  match r with
  | .next s => f s
  | .fault e => .fault e
  | .refused e => .refused e

/-! ## RBUF -/

/-- The canonical form: offsets strictly rising and below `CAP`, no entry equal to 0, what an unlisted offset holds. -/
abbrev Memory.wf (m : Memory) : Prop :=
  m.Pairwise (fun x y => x.1 < y.1) ∧ ∀ c ∈ m, c.1 < Config.cap ∧ c.2 ≠ 0#8

/-- `RBUF[a]` (R6). -/
def Memory.get : Memory → Nat → Byte
  | [], _ => 0#8
  | (b, v) :: m, a => if a = b then v else Memory.get m a

/-- `RBUF[a] <- v` (R6), keeping the canonical form. -/
def Memory.put : Memory → Nat → Byte → Memory
  | [], a, v => if v = 0#8 then [] else [(a, v)]
  | (b, w) :: m, a, v =>
    if a < b then (if v = 0#8 then (b, w) :: m else (a, v) :: (b, w) :: m)
    else if a = b then (if v = 0#8 then m else (a, v) :: m)
    else (b, w) :: Memory.put m a v

/-- `MemWrite(RBUF, a, n, bs)` (R6), lowest offset first. -/
def Memory.putRun (m : Memory) (a : Nat) : List Byte → Memory
  | [] => m
  | v :: bs => Memory.putRun (m.put a v) (a + 1) bs

/-- `MemRead(RBUF, a, n)` (R6). -/
def Memory.getRun (m : Memory) (a n : Nat) : List Byte :=
  (List.range n).map (fun i => m.get (a + i))

/-- The buffer whose byte at each offset below `n` is `f` of it. -/
def Memory.tabulate (f : Nat → Byte) : Nat → Memory
  | 0 => []
  | n + 1 => (Memory.tabulate f n).put n (f n)

/-! ## Devices -/

/-- Device `k` becomes `d`. -/
def State.setDevice (s : State) (k : Nat) (d : Device) : State :=
  { s with devices := s.devices.set k d }

/-- Act on device `k`, which must exist. -/
def withDevice (k : Nat) (s : State) (f : Device → Result) : Result :=
  match s.devices[k]? with
  | some d => f d
  | none => .refused .noSuchDevice

/-- Act on device `k`, which must be open (R128). -/
def withOpen (k : Nat) (s : State) (f : Device → Result) : Result :=
  withDevice k s fun d => if d.isOpen then f d else .refused .deviceClosed

/-- Act on device `k`, which must be closed (R128). -/
def withClosed (k : Nat) (s : State) (f : Device → Result) : Result :=
  withDevice k s fun d => if d.isOpen then .refused .deviceOpen else f d

/-- The registry: the numbers of the open devices (R127). -/
def State.registry (s : State) : List Nat :=
  (List.range s.devices.length).filter fun k => (s.devices[k]?.map (·.isOpen)).getD false

/-! ## Registers -/

/-- `result <- r` (R6). -/
def Device.ret (d : Device) (r : Status) : Device := { d with result := some r }

/-- The operation reports no result yet (R110). -/
def Device.noResult (d : Device) : Device := { d with result := none }

/-- `acc <- n` (R6). -/
def Device.setAcc (d : Device) (n : Nat) : Device := { d with rx := { d.rx with acc := BitVec.ofNat 9 n } }

/-- The bytes of a delivery are taken from `RXS` (R35). -/
def Device.consume (d : Device) (bs : List Byte) : Device := { d with rx := { d.rx with rxs := d.rx.rxs ++ bs } }

/-- `MemWrite(RBUF, acc, n, bs); acc <- acc + n` (R73). -/
def Device.append (d : Device) (bs : List Byte) : Device :=
  { d with rx := { d.rx with rbuf := d.rx.rbuf.putRun d.rx.acc.toNat bs, acc := BitVec.ofNat 9 (d.rx.acc.toNat + bs.length) } }

/-- `raise Fault(cause)`, the block's only trap entry: `fault <- cause`, the result is `ERR`, nothing else (R146). -/
def Device.raise (d : Device) (c : Cause) : Device :=
  { d with rx := { d.rx with fault := c }, result := some Config.err }

/-- What a successful OPEN leaves: the receive state zeroed, `tx_busy` 0, the other `tx_*` registers unspecified (R22, R120),
the binding made (R18), and the streams of a new connection empty (R30). -/
def Device.initialise (d : Device) (handle port baudrate context : Token) : Device :=
  { d with
    isOpen := true
    rx := { acc := 0#9, fault := .none, rbuf := [], rxs := [] }
    tx := { busy := false, type := Config.freeTxType d.fresh, off := Config.freeTxOff d.fresh,
            rem := Config.freeTxRem d.fresh, sdata := [], txs := [] }
    binding := { handle := handle, port := port, baudrate := baudrate, context := context }
    fresh := d.fresh.next }

/-- What CLOSE leaves: `open` 0, `tx_busy` 0, every other register and `RBUF` unspecified (R22, R123). -/
def Device.release (d : Device) : Device :=
  { d with
    isOpen := false
    rx := { acc := BitVec.ofNat 9 (Config.freeAcc d.fresh).val, fault := Config.freeCause d.fresh,
            rbuf := Memory.tabulate (Config.freeBufferByte d.fresh) Config.cap, rxs := d.rx.rxs }
    tx := { busy := false, type := Config.freeTxType d.fresh, off := Config.freeTxOff d.fresh,
            rem := Config.freeTxRem d.fresh, sdata := [], txs := d.tx.txs }
    binding := { handle := Config.freeToken d.fresh 0, port := Config.freeToken d.fresh 1,
                 baudrate := Config.freeToken d.fresh 2, context := Config.freeToken d.fresh 3 }
    fresh := d.fresh.next }

/-- SEND_START: `tx_type <- type; tx_off <- 0; tx_rem <- count; tx_busy <- 1`, and `SDATA` is the `count` bytes of `data`
(R36, R110). -/
def Device.startSend (d : Device) (type : Byte) (count : Count) (data : List Byte) : Device :=
  { d with tx := { d.tx with busy := true, type := type, off := 0#16, rem := count, sdata := data.take count.toNat } }

/-- The SEND in progress completes: `tx_busy <- 0` (R110), and its `SDATA` is gone (R36). -/
def Device.endSend (d : Device) : Device := { d with tx := { d.tx with busy := false, sdata := [] } }

/-- `tx_off <- tx_off + len; tx_rem <- tx_rem - len` (R110). -/
def Device.advanceSend (d : Device) (len : Nat) : Device :=
  { d with tx := { d.tx with off := d.tx.off + BitVec.ofNat 16 len, rem := d.tx.rem - BitVec.ofNat 16 len } }

/-- Bytes are appended to `TXS` (R35). -/
def Device.transmit (d : Device) (bs : List Byte) : Device := { d with tx := { d.tx with txs := d.tx.txs ++ bs } }

/-! ## Outbound transactions

`call P(args) -> resp` (R54): the transaction goes to the trace; the answer is the first of the port's list, or, where the list
has run out, a free value (notes/assumptions/3.md). -/

/-- The transaction `e` is made. -/
def Device.record (d : Device) (e : Event) : Device := { d with trace := d.trace ++ [e] }

/-- The answer of a handler whose list has run out: a free status, and no operation invoked. -/
def Device.freeAnswer (d : Device) : HandlerAnswer := { status := Config.freeStatus d.fresh, calls := [] }

/-- One free value has been taken. All of a device's free values, for whichever port or register, share one count: DESIGN CHOICE,
notes/assumptions/14.md. -/
def Device.bump (d : Device) : Device := { d with fresh := d.fresh.next }

/-- ON_READ's answer. -/
def Device.takeOnRead (d : Device) : HandlerAnswer × Device :=
  match d.env.onRead with
  | a :: rest => (a, { d with env := { d.env with onRead := rest } })
  | [] => (d.freeAnswer, d.bump)

/-- ON_WRITE_COMPLETE's answer. -/
def Device.takeOnWriteComplete (d : Device) : HandlerAnswer × Device :=
  match d.env.onWriteComplete with
  | a :: rest => (a, { d with env := { d.env with onWriteComplete := rest } })
  | [] => (d.freeAnswer, d.bump)

/-- ON_CLOSE's answer. -/
def Device.takeOnClose (d : Device) : HandlerAnswer × Device :=
  match d.env.onClose with
  | a :: rest => (a, { d with env := { d.env with onClose := rest } })
  | [] => (d.freeAnswer, d.bump)

/-- TX_WRITE's answer where its list has run out. -/
def freeWriteAnswer (key : FreeKey) : WriteAnswer :=
  if Config.freeAccepted key then .accepted else .failure (Config.freeSent key)

/-- TX_WRITE's answer. Where the list has run out, an ON_READ before it has moved the key: notes/assumptions/14.md. -/
def Device.takeTxWrite (d : Device) : WriteAnswer × Device :=
  match d.env.txWrite with
  | a :: rest => (a, { d with env := { d.env with txWrite := rest } })
  | [] => (freeWriteAnswer d.fresh, d.bump)

/-- T_OPEN's answer. -/
def Device.takeTOpen (d : Device) : Option Token × Device :=
  match d.env.tOpen with
  | a :: rest => (a, { d with env := { d.env with tOpen := rest } })
  | [] => (Config.freeTOpen d.fresh, d.bump)

/-- Whether the device state can be allocated (R122 c). -/
def Device.takeAlloc (d : Device) : Bool × Device :=
  match d.env.alloc with
  | a :: rest => (a, { d with env := { d.env with alloc := rest } })
  | [] => (Config.freeAlloc d.fresh, d.bump)

/-- Whether the callbacks can be installed and the readiness source registered (R122 d). -/
def Device.takeInstall (d : Device) : Bool × Device :=
  match d.env.install with
  | a :: rest => (a, { d with env := { d.env with install := rest } })
  | [] => (Config.freeInstall d.fresh, d.bump)

/-- `call SET_READ_SIZE(n)` (R56). -/
def Device.callSetReadSize (d : Device) (n : Nat) : Device := d.record (.setReadSize (BitVec.ofNat 8 n))

/-- `call T_OPEN(port, baudrate)` (R54). -/
def Device.callTOpen (d : Device) (port baudrate : Token) : Option Token × Device :=
  (d.takeTOpen.1, d.takeTOpen.2.record (.tOpen port baudrate d.takeTOpen.1))

/-- `call T_CLOSE` (R54). -/
def Device.callTClose (d : Device) : Device := d.record .tClose

/-- The bytes of a TX_WRITE that reach the wire: all of them if it is accepted (R35); else the first `sent`, the transport's
affair (R105, notes/assumptions/10.md). -/
def wireBytes (bytes : List Byte) : WriteAnswer → List Byte
  | .accepted => bytes
  | .failure sent => bytes.take sent

/-- `call TX_WRITE(bytes) -> accepted | failure` (R57). -/
def Device.callTxWrite (d : Device) (bytes : List Byte) : Bool × Device :=
  (decide (d.takeTxWrite.1 = .accepted),
   (d.takeTxWrite.2.record (.txWrite bytes (decide (d.takeTxWrite.1 = .accepted)))).transmit (wireBytes bytes d.takeTxWrite.1))

/-- The record of a request waiting at the front, and the state without it. -/
def fetch (s : State) : Option (Request × State) :=
  match s.inbox with
  | [] => none
  | r :: rest => some (r, { s with inbox := rest })

/-- The request `r` waits in front of all others. -/
def State.place (s : State) (r : Request) : State := { s with inbox := r :: s.inbox }

end Sys2Proof.Machine
end

