-- ==== Sys2Proof/Machine/Operands.lean ====
section
/-! DEFINITION. The values computed from fields and registers: spec/30_encoding.md R62, spec/10_state.md R20,
spec/41_sender.md R101 to R103. -/

namespace Sys2Proof.Machine

/-! ## Receive -/

/-- `L = zext(RBUF[1])` (R62). -/
def Device.frameLength (d : Device) : Nat := (d.rx.rbuf.get 1).toNat

/-- `got = acc - HDR_SIZE`, the payload bytes in, defined when `acc ≥ 2` (R62). -/
def Device.got (d : Device) : Nat := d.rx.acc.toNat - Config.hdrSize

/-- `need`, the bytes still needed; undefined past the end of the frame (R62, R74). -/
def Device.need (d : Device) : Option Nat :=
  if d.rx.acc.toNat < Config.hdrSize then some (Config.hdrSize - d.rx.acc.toNat)
  else if d.got ≤ d.frameLength then some (d.frameLength - d.got)
  else none

/-- `next_read_size`, a pure function of the state (R20): 0 when closed or faulted, else the bytes needed. Past the end of a
frame the formula has no meaning (R68) and the output is a free value: notes/assumptions/6.md. -/
def Device.nextReadSize (d : Device) : ReadSize :=
  if d.isOpen && decide (d.rx.fault = .none) then
    match d.need with
    | some n => BitVec.ofNat 8 n
    | none => Config.freeReadSize d.fresh
  else 0#8

/-- The `value` of the packet in `RBUF`: `RBUF[2 .. 1 + L]` (R59). -/
def Device.packetValue (d : Device) : List Byte := d.rx.rbuf.getRun Config.hdrSize d.frameLength

/-! ## Transmit -/

/-- `N = max(1, ceil(count / MAX_PAYLOAD))` (R62, R101). -/
def chunkCount (count : Nat) : Nat := max 1 ((count + (Config.maxPayload - 1)) / Config.maxPayload)

/-- `off_i = MAX_PAYLOAD × i` (R62, R102). -/
def chunkOffset (i : Nat) : Nat := Config.maxPayload * i

/-- `len_i = min(MAX_PAYLOAD, count - off_i)` (R62, R102). -/
def chunkLength (count i : Nat) : Nat := min Config.maxPayload (count - chunkOffset i)

/-- `MemRead(SDATA, a, n)` (R6). -/
def readSData (sdata : List Byte) (a n : Nat) : List Byte := (sdata.drop a).take n

/-- The payloads of the packets of a SEND, lowest offset first (R102, R103). -/
def chunks (data : List Byte) (count : Nat) : List (List Byte) :=
  (List.range (chunkCount count)).map fun i => readSData data (chunkOffset i) (chunkLength count i)

/-- `min(MAX_PAYLOAD, tx_rem)`, the length of the next packet of the SEND in progress (R110). -/
def Device.nextChunkLength (d : Device) : Nat := min Config.maxPayload d.tx.rem.toNat

/-- `MemRead(SDATA, tx_off, len)` (R110). -/
def Device.nextChunk (d : Device) : List Byte := readSData d.tx.sdata d.tx.off.toNat d.nextChunkLength

end Sys2Proof.Machine
end

