-- ==== Sys2Proof/Machine/Flags.lean ====
section
/-! DEFINITION. The block's status: the `fault` register's codes (R14), the derived state of the receive machine (R13), and the
sign of a status (R60). There are no arithmetic condition codes. -/

namespace Sys2Proof.Machine

/-- The codes of the `fault` register (R14, R140). -/
def causeCode : Cause → BitVec 2
  | .none => 0#2
  | .framingOverflow => 1#2
  | .packetOverrun => 2#2
  | .transportReadFail => 3#2

/-- `fault ≠ 0`. -/
def Device.faulted (d : Device) : Bool := decide (causeCode d.rx.fault ≠ 0#2)

/-- Negative means failure (R60). -/
def isFailure (r : Status) : Bool := r.msb

/-- The state of the receive machine (R13). -/
def Device.rxState (d : Device) : RxState :=
  if d.isOpen = false then .closed
  else if d.faulted then .faulted
  else if d.rx.acc.toNat < Config.hdrSize then .awaitingHeader
  else if d.got < d.frameLength then .awaitingPayload
  else if d.got = d.frameLength then .packetReady
  else .overrun

end Sys2Proof.Machine
end

