-- ==== Sys2Proof/Machine/Transmit.lean ====
section
/-! DEFINITION. The chunked sender (spec/41_sender.md): SEND in its atomic form and SEND_START, and TX_WRITE, the step that
writes one packet of the SEND in progress. -/

namespace Sys2Proof.Machine

/-- The loop of R100 over the chunks still to be written: one TX_WRITE each, in order; the first failure ends it with `ERR`
(R104, R105); all accepted ends it with `OK` (R106). -/
def Device.sendChunks (d : Device) (type : Byte) : List (List Byte) → Device
  | [] => d.ret Config.ok
  | c :: cs =>
    if (d.callTxWrite (frameBytes type c)).1 then
      Device.sendChunks (d.callTxWrite (frameBytes type c)).2 type cs
    else (d.callTxWrite (frameBytes type c)).2.ret Config.err

/-- What SEND does to its device: all its packets (R100), or only the start (R110), which reports no result: the field holds none
(notes/assumptions/12.md). -/
def Device.send (d : Device) (form : SendForm) (type : Byte) (count : Count) (data : List Byte) : Device :=
  match form with
  | .atomic => d.sendChunks type (chunks data count.toNat)
  | .start => (d.startSend type count data).noResult

/-- SEND on device `k`: closed, no step (R128); a SEND in progress, the caller waits (R112); fewer than `count` readable
bytes, no step (R113). It does not read `fault` (R100). -/
def opSend (k : Nat) (form : SendForm) (type : Byte) (count : Count) (data : List Byte) (s : State) : Result :=
  withOpen k s fun d =>
    if d.tx.busy then .refused .senderBusy
    else if data.length < count.toNat then .refused .sendDataMissing
    else .next (s.setDevice k (d.send form type count data))

/-- SEND_CHUNK after the answer to its TX_WRITE of `len` payload bytes (R110). With packets still to come it reports no result, and
the field keeps what it held: DESIGN CHOICE, notes/assumptions/12.md. -/
def Device.afterChunk (d : Device) (accepted : Bool) (len : Nat) : Device :=
  if accepted = false then d.endSend.ret Config.err
  else if (d.advanceSend len).tx.rem = 0#16 then (d.advanceSend len).endSend.ret Config.ok
  else d.advanceSend len

/-- SEND_CHUNK (R110): TX_WRITE of the next packet, then the registers. -/
def Device.sendChunk (d : Device) : Device :=
  (d.callTxWrite (frameBytes d.tx.type d.nextChunk)).2.afterChunk
    (d.callTxWrite (frameBytes d.tx.type d.nextChunk)).1 d.nextChunkLength

/-- TX_WRITE on device `k`, enabled when `tx_busy` = 1 (R110); without readable bytes of `SDATA`, no step (R113). -/
def opTxWrite (k : Nat) (s : State) : Result :=
  withOpen k s fun d =>
    if d.tx.busy = false then .refused .senderIdle
    else if d.nextChunk.length ≠ d.nextChunkLength then .refused .sendDataMissing
    else .next (s.setDevice k d.sendChunk)

/-- SEND (R100, R110). -/
def execSend (dev : Nat) (form : SendForm) (type : Byte) (count : Count) (data : List Byte) (s : State) : Result :=
  opSend dev form type count data s

/-- TX_WRITE (R57, R104, R110). -/
def execTxWrite (dev : Nat) (s : State) : Result := opTxWrite dev s

end Sys2Proof.Machine
end

