-- ==== Sys2Proof/Machine/Lifecycle.lean ====
section
/-! DEFINITION. The device lifecycle (spec/42_lifecycle.md): OPEN, CLOSE, and the transactions T_OPEN, T_CLOSE. -/

namespace Sys2Proof.Machine

/-- OPEN, lines 5 to 10: everything has been acquired (R120). -/
def Device.openSucceeds (d : Device) (handle port baudrate context : Token) : Device :=
  ((d.initialise handle port baudrate context).callSetReadSize Config.hdrSize).ret Config.ok

/-- OPEN fails after the transport was opened: the connection is closed again, the result is `ERR`, nothing else (R122). -/
def Device.openFails (d : Device) : Device := d.callTClose.ret Config.err

/-- OPEN, line 6: installing the trampolines, registering the readiness source (R120, R122 d). That a failure here leaves `acc`,
`fault` and `RBUF` as they were, although line 5 comes before: DESIGN CHOICE, notes/assumptions/16.md. -/
def Device.openInstall (d : Device) (handle port baudrate context : Token) : Device :=
  if d.takeInstall.1 then d.takeInstall.2.openSucceeds handle port baudrate context else d.takeInstall.2.openFails

/-- OPEN, line 4: allocating the device state (R120, R122 c). -/
def Device.openAllocate (d : Device) (handle port baudrate context : Token) : Device :=
  if d.takeAlloc.1 then d.takeAlloc.2.openInstall handle port baudrate context else d.takeAlloc.2.openFails

/-- OPEN, line 3: the transport connection (R120, R122 b). -/
def Device.openTransport (d : Device) (port baudrate context : Token) : Device :=
  match (d.callTOpen port baudrate).1 with
  | some handle => (d.callTOpen port baudrate).2.openAllocate handle port baudrate context
  | none => (d.callTOpen port baudrate).2.ret Config.err

/-- OPEN, line 2: both hooks must be present; the check is made before the transport is touched (R121). -/
def Device.openWith (d : Device) (addSource removeSource : Bool) (port baudrate context : Token) : Device :=
  if addSource && removeSource then d.openTransport port baudrate context else d.ret Config.err

/-- OPEN on device `k` (R120); on an open device, no step (R128). -/
def opOpen (k : Nat) (addSource removeSource : Bool) (port baudrate context : Token) (s : State) : Result :=
  withClosed k s fun d => .next (s.setDevice k (d.openWith addSource removeSource port baudrate context))

/-- CLOSE, lines 2 to 5 (R123). -/
def Device.closed (d : Device) : Device := d.callTClose.release.ret Config.ok

/-- CLOSE on device `k` (R123); on a closed device, no step (R124). -/
def opClose (k : Nat) (s : State) : Result :=
  withOpen k s fun d => .next (s.setDevice k d.closed)

/-- T_OPEN by itself (R54): the result is `OK` for a handle, `ERR` for a failure; no register of the block changes. -/
def Device.tOpenAlone (d : Device) (port baudrate : Token) : Device :=
  (d.callTOpen port baudrate).2.ret (if (d.callTOpen port baudrate).1.isSome then Config.ok else Config.err)

/-- OPEN (R120). -/
def execOpenDevice (dev : Nat) (addSource removeSource : Bool) (port baudrate context : Token) (s : State) : Result :=
  opOpen dev addSource removeSource port baudrate context s

/-- CLOSE (R123). -/
def execClose (dev : Nat) (s : State) : Result := opClose dev s

/-- T_OPEN, made by OPEN on a closed device (R54, R120). -/
def execTOpen (dev : Nat) (port baudrate : Token) (s : State) : Result :=
  withClosed dev s fun d => .next (s.setDevice dev (d.tOpenAlone port baudrate))

/-- T_CLOSE, made by CLOSE on an open device and by a failed OPEN on a closed one; it has no response
(R54, R123) and reports no result, and the field keeps what it held: DESIGN CHOICE, notes/assumptions/9.md and 12.md. -/
def execTClose (dev : Nat) (s : State) : Result :=
  withDevice dev s fun d => .next (s.setDevice dev d.callTClose)

end Sys2Proof.Machine
end

