-- ==== Sys2Proof/Machine/Handlers.lean ====
section
/-! DEFINITION. The caller's handlers: the operations a handler invokes run to completion inside the operation that called it
(spec/20_memory.md R39, spec/60_exceptions.md R152, R162); inside ON_READ it must not close its own device (R183). And the two
pass-throughs (spec/42_lifecycle.md R125, R126). -/

namespace Sys2Proof.Machine

/-- The device a caller's operation is on. -/
def callDevice : CallerCall → Nat
  | .openDevice dev _ _ _ _ _ => dev
  | .close dev => dev
  | .send dev _ _ _ _ => dev

/-- The operation a handler invokes. A SEND in its atomic form runs to completion (R152). In its stepwise form, of which the spec says
nothing here, it only starts: DESIGN CHOICE, notes/assumptions/13.md. That outside ON_READ a handler may close and open its own
device: DESIGN CHOICE, notes/assumptions/15.md. -/
def callOperation : CallerCall → State → Result
  | .openDevice dev add remove port baudrate context, s => opOpen dev add remove port baudrate context s
  | .close dev, s => opClose dev s
  | .send dev form type count data, s => opSend dev form type count data s

/-- The result of the operation on device `k` is returned to the handler that invoked it (R152). -/
def noteReturn (k : Nat) (s : State) : Result :=
  withDevice k s fun d => .next (s.setDevice k (d.record (.returned d.result)))

/-- One operation invoked by a handler. `reading` is the device whose ON_READ the handler answers, if it is that one (R183). -/
def runCall (reading : Option Nat) (c : CallerCall) (s : State) : Result :=
  if c = .close (callDevice c) && decide (reading = some (callDevice c)) then .refused .closeInsideOnRead
  else andThen (callOperation c s) (noteReturn (callDevice c))

/-- The operations invoked by a handler, in order. -/
def runCalls (reading : Option Nat) : List CallerCall → State → Result
  | [], s => .next s
  | c :: cs, s => andThen (runCall reading c s) (runCalls reading cs)

/-- A handler of device `k` runs, and then the operation that called it finishes on the device as the handler left it. -/
def runHandler (reading : Option Nat) (calls : List CallerCall) (k : Nat) (finish : Device → Device) (s : State) : Result :=
  andThen (runCalls reading calls s) fun t => withDevice k t fun d => .next (t.setDevice k (finish d))

/-- `s <- call ON_WRITE_COMPLETE(context, k); result <- s` (R125). -/
def opWriteComplete (k : Nat) (bytesTransferred : Token) (s : State) : Result :=
  withOpen k s fun d =>
    runHandler none d.takeOnWriteComplete.1.calls k (fun e => e.ret d.takeOnWriteComplete.1.status)
      (s.setDevice k (d.takeOnWriteComplete.2.record
        (.onWriteComplete d.binding.context bytesTransferred d.takeOnWriteComplete.1.status)))

/-- `s <- call ON_CLOSE(context); result <- s` (R126). -/
def opTransportClose (k : Nat) (s : State) : Result :=
  withOpen k s fun d =>
    runHandler none d.takeOnClose.1.calls k (fun e => e.ret d.takeOnClose.1.status)
      (s.setDevice k (d.takeOnClose.2.record (.onClose d.binding.context d.takeOnClose.1.status)))

/-- WRITE_COMPLETE (R125). -/
def execWriteComplete (dev : Nat) (bytesTransferred : Token) (s : State) : Result :=
  opWriteComplete dev bytesTransferred s

/-- TRANSPORT_CLOSE (R126). -/
def execTransportClose (dev : Nat) (s : State) : Result := opTransportClose dev s

/-- ON_WRITE_COMPLETE: the whole effect of the operation that makes it (R125). -/
def execOnWriteComplete (dev : Nat) (bytesTransferred : Token) (s : State) : Result :=
  opWriteComplete dev bytesTransferred s

/-- ON_CLOSE: the whole effect of the operation that makes it (R126). -/
def execOnClose (dev : Nat) (s : State) : Result := opTransportClose dev s

end Sys2Proof.Machine
end

