-- ==== Sys2Proof/Machine/Receive.lean ====
section
/-! DEFINITION. The reassembly state machine (spec/40_reassembly.md): DELIVER, DELIVER_FAIL, and the transactions ON_READ and
SET_READ_SIZE. -/

namespace Sys2Proof.Machine

/-- What follows ON_READ in R77: `acc <- 0`, SET_READ_SIZE(2), and the handler's status is the result, whatever it is (R78). -/
def Device.afterOnRead (d : Device) (status : Status) : Device :=
  ((d.setAcc 0).callSetReadSize Config.hdrSize).ret status

/-- ON_READ is made with the packet in `RBUF` (R59). -/
def Device.madeOnRead (d : Device) : Device :=
  d.takeOnRead.2.record
    (.onRead d.binding.context (d.rx.rbuf.get 0) (d.rx.rbuf.get 1) d.packetValue d.takeOnRead.1.status)

/-- Line 9 of DELIVER, PacketReady (R77, R78), on device `k`, which is `d`: the packet is handed over, and what the handler
invokes runs inside. The packet lies at offsets 0 to `1 + L`; offset 256 does not exist (R11). -/
def handOver (k : Nat) (d : Device) (s : State) : Result :=
  if Config.cap < Config.hdrSize + d.frameLength then .fault .bufferOffset
  else runHandler (some k) d.takeOnRead.1.calls k (fun e => e.afterOnRead d.takeOnRead.1.status) (s.setDevice k d.madeOnRead)

/-- Lines 5 to 9 of DELIVER, after the append (R74): still a header to wait for (R75), past the end of the frame (R79), still
payload to wait for (R76), or a packet (R77). -/
def afterAppend (k : Nat) (d : Device) (s : State) : Result :=
  if d.rx.acc.toNat < Config.hdrSize then
    .next (s.setDevice k ((d.callSetReadSize (Config.hdrSize - d.rx.acc.toNat)).ret Config.ok))
  else if d.frameLength < d.got then .next (s.setDevice k (d.raise .packetOverrun))
  else if d.got < d.frameLength then
    .next (s.setDevice k ((d.callSetReadSize (d.frameLength - d.got)).ret Config.ok))
  else handOver k d s

/-- DELIVER on device `k` (R70), in R148's order of checks: closed (R128), faulted (R71), capacity (R72), append (R73). -/
def opDeliver (k : Nat) (bs : List Byte) (s : State) : Result :=
  withOpen k s fun d =>
    if d.faulted then .next (s.setDevice k ((d.consume bs).ret Config.err))
    else if Config.cap < d.rx.acc.toNat + bs.length then
      .next (s.setDevice k ((d.consume bs).raise .framingOverflow))
    else afterAppend k ((d.consume bs).append bs) s

/-- DELIVER (R70). -/
def execDeliver (dev : Nat) (d : List Byte) (s : State) : Result := opDeliver dev d s

/-- DELIVER_FAIL (R80). -/
def execDeliverFail (dev : Nat) (s : State) : Result :=
  withOpen dev s fun d =>
    if d.faulted then .next (s.setDevice dev (d.ret Config.err))
    else .next (s.setDevice dev (d.raise .transportReadFail))

/-- ON_READ: made in PacketReady alone, with what follows it (R77). -/
def execOnRead (dev : Nat) (s : State) : Result :=
  withOpen dev s fun d =>
    if d.rxState = .packetReady then handOver dev d s else .refused .packetNotReady

/-- SET_READ_SIZE: requests `next_read_size` in the two states in which the block makes the request (R56, R81); it has no
response and reports no result, and the field keeps what it held: DESIGN CHOICE, notes/assumptions/9.md and 12.md. -/
def execSetReadSize (dev : Nat) (s : State) : Result :=
  withOpen dev s fun d =>
    if d.rxState = .awaitingHeader ∨ d.rxState = .awaitingPayload then
      .next (s.setDevice dev (d.record (.setReadSize d.nextReadSize)))
    else .refused .requestNotDue

end Sys2Proof.Machine
end

