-- ==== Sys2Proof/Machine/Wire.lean ====
section
/-! DEFINITION. The two rows of the wire frame. A frame is no operation of the block; its meaning is its arrival: an honest
transport feeds its bytes to the decoder, the pseudo-operation FEED of spec/30_encoding.md R67 (notes/assumptions/7.md). -/

namespace Sys2Proof.Machine

/-- FEED (R67): while bytes are left and `fault` = 0, DELIVER the next `min(next_read_size, |s|)` of them. `fuel` bounds the
deliveries; each takes at least one byte, but for one at the most from a state no run rests in. -/
def feed (k : Nat) : Nat → List Byte → State → Result
  | 0, _, s => .next s
  | _ + 1, [], s => .next s
  | fuel + 1, b :: bs, s =>
    withOpen k s fun d =>
      if d.faulted then .next s
      else
        andThen (opDeliver k ((b :: bs).take d.nextReadSize.toNat) s)
          (feed k fuel ((b :: bs).drop d.nextReadSize.toNat))

/-- Enough deliveries for `bs`. -/
def feedAll (k : Nat) (bs : List Byte) (s : State) : Result := feed k (bs.length + 1) bs s

/-- FRAME (R50, R70, R84): the frame `[type, length] ++ value` arrives. -/
def execFrame (dev : Nat) (type : Byte) (value : List Byte) (s : State) : Result :=
  feedAll dev (frameBytes type value) s

/-- FRAME_RSVD_L255 (R64, R85): a header with length 255 arrives, and the bytes after it. -/
def execFrameRsvdL255 (dev : Nat) (type : Byte) (value : List Byte) (s : State) : Result :=
  feedAll dev (type :: 0xFF#8 :: value) s

end Sys2Proof.Machine
end

