-- ==== Sys2Proof/Machine/Dispatch.lean ====
section
/-! DEFINITION. One arm per constructor of Instr, each one direct call of that instruction's meaning. -/

namespace Sys2Proof.Machine

def exec (i : Instr) (s : State) : Host.Outcome State Fault Refusal :=
  match i with
  | .frame dev type value => Sys2Proof.Machine.execFrame dev type value s
  | .frameRsvdL255 dev type value => Sys2Proof.Machine.execFrameRsvdL255 dev type value s
  | .openDevice dev add remove port baudrate context => Sys2Proof.Machine.execOpenDevice dev add remove port baudrate context s
  | .close dev => Sys2Proof.Machine.execClose dev s
  | .deliver dev d => Sys2Proof.Machine.execDeliver dev d s
  | .deliverFail dev => Sys2Proof.Machine.execDeliverFail dev s
  | .send dev form type count data => Sys2Proof.Machine.execSend dev form type count data s
  | .writeComplete dev k => Sys2Proof.Machine.execWriteComplete dev k s
  | .transportClose dev => Sys2Proof.Machine.execTransportClose dev s
  | .onRead dev => Sys2Proof.Machine.execOnRead dev s
  | .setReadSize dev => Sys2Proof.Machine.execSetReadSize dev s
  | .txWrite dev => Sys2Proof.Machine.execTxWrite dev s
  | .onWriteComplete dev k => Sys2Proof.Machine.execOnWriteComplete dev k s
  | .onClose dev => Sys2Proof.Machine.execOnClose dev s
  | .tOpen dev port baudrate => Sys2Proof.Machine.execTOpen dev port baudrate s
  | .tClose dev => Sys2Proof.Machine.execTClose dev s

end Sys2Proof.Machine
end

