-- ==== Sys2Proof/Machine/Step.lean ====
section
/-! DEFINITION. One step: the request that waits at the front is decoded and run. With none waiting the block is parked and the
state stays as it is (spec/40_reassembly.md R87). -/

namespace Sys2Proof.Machine

/-- One step of the machine (R7, R87). -/
def step (s : State) : Host.Outcome State Fault Refusal :=
  match fetch s with
  | none => .next s
  | some (r, t) =>
    match decode r with
    | .ok i => exec i t
    | .error e => .refused (.undecodable e)

/-- `s` with the instruction of a table row's word waiting in front of all others (notes/assumptions/5.md). -/
def State.withFetchWord (s : State) (nbits w : Nat) : State := s.place (tableRequest nbits w)

end Sys2Proof.Machine
end

