-- ==== Sys2Proof/Safety.lean ====
section
/-! DEFINITION. The terms claims are written in: the invariant of every state between two operations, runs of several
instructions, what a run shows at the block's ports, and which part of the state an operation may touch. -/

namespace Sys2Proof.Machine

/-! ## The invariant -/

/-- On an open device with `fault` = 0, between operations: a header is still awaited, or payload is (R16). -/
abbrev Device.AtRest (d : Device) : Prop :=
  d.isOpen = true → d.rx.fault = .none → d.rx.acc.toNat < 2 ∨ d.got < d.frameLength

/-- A SEND in progress belongs to an open device, and `tx_off`, `tx_rem` divide its `SDATA`, whose size `count` can name
(R17, R110). -/
abbrev Device.SenderSound (d : Device) : Prop :=
  d.tx.busy = true →
    d.isOpen = true ∧ d.tx.off.toNat + d.tx.rem.toNat = d.tx.sdata.length ∧ d.tx.sdata.length < 65536

/-- The invariant of a device: `RBUF` in its canonical form, `acc` in its range (R12), the rest state (R16), the sender (R17). -/
abbrev Device.Inv (d : Device) : Prop :=
  d.rx.rbuf.wf ∧ d.rx.acc.toNat ≤ 256 ∧ d.AtRest ∧ d.SenderSound

/-- The invariant of the machine. -/
abbrev State.Inv (s : State) : Prop := ∀ d ∈ s.devices, d.Inv

/-- A state is clean when no fault is latched and no partial frame is in (R172). -/
abbrev Device.Clean (d : Device) : Prop := d.rx.fault = .none ∧ d.rx.acc.toNat = 0

/-! ## Runs -/

/-- A run is safe if it ends in a next state: no fault of the machine, no refusal. -/
abbrev Safe (r : Result) : Prop := ∃ t, r = .next t

/-- Instructions one after another. -/
def runAll : List Instr → State → Result
  | [], s => .next s
  | i :: is, s => andThen (exec i s) (runAll is)

/-- The steps of the stepwise sender of device `k`, at most `n`, while a SEND is in progress (R110). -/
def runWrites (k : Nat) : Nat → State → Result
  | 0, s => .next s
  | n + 1, s =>
    match s.devices[k]? with
    | some d => if d.tx.busy then andThen (exec (.txWrite k) s) (runWrites k n) else .next s
    | none => .next s

/-- An honest transport: no delivery is longer than the read size requested before it (R84, R182). -/
def honestRun (k : Nat) : List (List Byte) → State → Prop
  | [], _ => True
  | bs :: rest, s =>
    (∀ d, s.devices[k]? = some d → bs.length ≤ d.nextReadSize.toNat) ∧
      ∀ t, exec (.deliver k bs) s = .next t → honestRun k rest t

/-! ## Ports -/

/-- The packets handed to the sink, in order: type, length, value (R59). -/
def packetsRead : List Event → List (Byte × Byte × List Byte)
  | [] => []
  | .onRead _ t l v _ :: es => (t, l, v) :: packetsRead es
  | .setReadSize _ :: es => packetsRead es
  | .txWrite _ _ :: es => packetsRead es
  | .onWriteComplete _ _ _ :: es => packetsRead es
  | .onClose _ _ :: es => packetsRead es
  | .tOpen _ _ _ :: es => packetsRead es
  | .tClose :: es => packetsRead es
  | .returned _ :: es => packetsRead es

/-- The event is an ON_READ. -/
def isOnRead : Event → Bool
  | .onRead _ _ _ _ _ => true
  | _ => false

/-- The event, if it is a TX_WRITE, carries one wire frame: a type, a length of at most 254, that many bytes (R57). -/
abbrev carriesFrame (e : Event) : Prop :=
  ∀ bytes accepted, e = .txWrite bytes accepted →
    ∃ type value, bytes = type :: BitVec.ofNat 8 value.length :: value ∧ value.length ≤ 254

/-! ## What an operation may touch -/

/-- Nothing but device `k` has changed. -/
abbrev OnlyDevice (k : Nat) (s t : State) : Prop :=
  t.inbox = s.inbox ∧ t.devices.length = s.devices.length ∧ ∀ j, j ≠ k → t.devices[j]? = s.devices[j]?

/-- The device an instruction is for. -/
def instrDevice : Instr → Nat
  | .frame dev _ _ => dev
  | .frameRsvdL255 dev _ _ => dev
  | .openDevice dev _ _ _ _ _ => dev
  | .close dev => dev
  | .deliver dev _ => dev
  | .deliverFail dev => dev
  | .send dev _ _ _ _ => dev
  | .writeComplete dev _ => dev
  | .transportClose dev => dev
  | .onRead dev => dev
  | .setReadSize dev => dev
  | .txWrite dev => dev
  | .onWriteComplete dev _ => dev
  | .onClose dev => dev
  | .tOpen dev _ _ => dev
  | .tClose dev => dev

/-- Every operation that a handler of the device is going to invoke is on device `k`. -/
abbrev Device.CallsOnly (d : Device) (k : Nat) : Prop :=
  (∀ a ∈ d.env.onRead, ∀ c ∈ a.calls, callDevice c = k) ∧
  (∀ a ∈ d.env.onWriteComplete, ∀ c ∈ a.calls, callDevice c = k) ∧
  (∀ a ∈ d.env.onClose, ∀ c ∈ a.calls, callDevice c = k)

/-- No handler of the device is going to invoke an operation from inside ON_READ. -/
abbrev Device.QuietReads (d : Device) : Prop := ∀ a ∈ d.env.onRead, a.calls = []

/-- Every operation that a handler of the device is going to invoke is a SEND. -/
abbrev Device.CallsSendOnly (d : Device) : Prop :=
  ∀ a ∈ d.env.onRead ++ d.env.onWriteComplete ++ d.env.onClose, ∀ c ∈ a.calls,
    c ≠ .close (callDevice c) ∧ ∀ add remove p b x, c ≠ .openDevice (callDevice c) add remove p b x

/-! ## Answers -/

/-- The next answer on a port is `a`, which leaves the port's list `rest` and the key `fresh'` of the next free value: the first of the list, or,
where the list has run out, the free value `free` (notes/assumptions/3.md). -/
abbrev Taken {α : Type} (port : List α) (free : α) (fresh : FreeKey) (a : α) (rest : List α) (fresh' : FreeKey) : Prop :=
  (port = a :: rest ∧ fresh' = fresh) ∨ (port = [] ∧ a = free ∧ rest = [] ∧ fresh' = fresh.next)

/-- The next answer of a handler's port is `a`: the first of the list, or a free status and no operation invoked. -/
abbrev Answers (port : List HandlerAnswer) (fresh : FreeKey) (a : HandlerAnswer) (rest : List HandlerAnswer) (fresh' : FreeKey) : Prop :=
  Taken port { status := Config.freeStatus fresh, calls := [] } fresh a rest fresh'

/-- The next answer to TX_WRITE is `a`. -/
abbrev WriteAnswers (port : List WriteAnswer) (fresh : FreeKey) (a : WriteAnswer) (rest : List WriteAnswer) (fresh' : FreeKey) : Prop :=
  Taken port (if Config.freeAccepted fresh then .accepted else .failure (Config.freeSent fresh)) fresh a rest fresh'

/-- `m'` is `m` with `bs` stored from offset `a` on, every other offset as before, in the canonical form. -/
abbrev Appended (m : Memory) (a : Nat) (bs : List Byte) (m' : Memory) : Prop :=
  m'.wf ∧ (∀ i : Fin bs.length, m'.get (a + i) = bs[i]) ∧ ∀ b, b < a ∨ a + bs.length ≤ b → m'.get b = m.get b

/-- The two devices agree but for what `RBUF` holds at and above `acc` (R23). -/
abbrev SameButStale (d e : Device) : Prop :=
  e = { d with rx := { d.rx with rbuf := e.rx.rbuf } } ∧ e.rx.rbuf.wf ∧ d.rx.rbuf.wf ∧
    ∀ a, a < d.rx.acc.toNat → e.rx.rbuf.get a = d.rx.rbuf.get a

end Sys2Proof.Machine
end

