-- ==== Sys2Proof/Certificates/Slice0/Obligations.lean ====
section
/-! DEFINITION. The statements about the machine. `s.devices[k]? = some d` says that device `k` of the state is `d`; a next state is
written as the state with device `k` set to `d` with the fields that change, so that every field not named is unchanged. `0xFFFFFFFF#32`
is `ERR` = -1 and `0#32` is `OK` (the spec's own decision D5; `Config.err` and `Config.ok` where a rule names them without a number).
The fields `trace`, `env` and `fresh` (notes/assumptions/3.md, 4.md) and the streams `rxs` and `txs` (10.md) are the model's record of
what passes the ports. -/

open Sys2Proof Sys2Proof.Machine

/-! ## Reset, the step, the invariant -/

/-- R171 (the spec's own decision D17), R13, R20 (decision D11): at power-on every instance is Closed with `open` = 0, `acc` = 0,
`fault` = 0, `tx_busy` = 0, and reads `next_read_size` = 0. -/
def Obligations.ResetIsClosed : Prop :=
  State.reset.devices ≠ [] ∧ ∀ d ∈ State.reset.devices,
    d.isOpen = false ∧ d.rx.acc = 0#9 ∧ d.rx.fault = .none ∧ d.tx.busy = false ∧
      d.nextReadSize = 0#8 ∧ d.rxState = .closed

/-- The invariant holds at reset. -/
def Obligations.InvariantAtReset : Prop := State.reset.Inv

/-- Every step keeps the invariant: `RBUF` canonical and inside its 256 offsets, `acc` at most 256, the rest state of R16 on an
open device without a fault, a SEND in progress only on an open device and within its `SDATA`. -/
def Obligations.StepKeepsInvariant : Prop :=
  ∀ s t : State, s.Inv → step s = .next t → t.Inv

/-- R16 (derived in the spec) and R20: between operations an open device without a fault awaits a header (`acc` < 2), or payload, and then
2 ≤ `acc` ≤ 1 + RBUF[1] ≤ 256, and `acc` = 256 only if RBUF[1] = 255; it asks for 1 to 255 bytes, exactly those needed. -/
def Obligations.RestStateRanges : Prop :=
  ∀ (s t : State) (d : Device), s.Inv → step s = .next t → d ∈ t.devices → d.isOpen = true → d.rx.fault = .none →
    (d.rxState = .awaitingHeader ∧ d.rx.acc.toNat < 2 ∧ d.nextReadSize.toNat = 2 - d.rx.acc.toNat) ∨
    (d.rxState = .awaitingPayload ∧ 2 ≤ d.rx.acc.toNat ∧ d.rx.acc.toNat ≤ 1 + (d.rx.rbuf.get 1).toNat ∧
      (d.rx.acc.toNat = 256 → d.rx.rbuf.get 1 = 0xFF#8) ∧
      d.nextReadSize.toNat = (d.rx.rbuf.get 1).toNat - (d.rx.acc.toNat - 2) ∧
      1 ≤ d.nextReadSize.toNat ∧ d.nextReadSize.toNat ≤ 255)

/-- A step runs the decoded instruction: the request in front is decoded and run on the state without it. -/
def Obligations.StepRunsDecoded : Prop :=
  ∀ (s : State) (r : Request) (rest : List Request) (i : Instr),
    s.inbox = r :: rest → decode r = .ok i → step s = exec i { s with inbox := rest }

/-- A request that is no instruction has no step. -/
def Obligations.StepRefusesUndecodable : Prop :=
  ∀ (s : State) (r : Request) (rest : List Request) (e : DecodeError),
    s.inbox = r :: rest → decode r = .error e → step s = .refused (.undecodable e)

/-- R87: the block makes no step of its own accord; with no request waiting every device stays as it is. -/
def Obligations.StepParksWithoutRequest : Prop :=
  ∀ s : State, s.inbox = [] → step s = .next s

/-! ## Encoding -/

/-- Decode and encode agree: every well-formed instruction, with every operand at every value, is read back. -/
def Obligations.DecodeOfEncode : Prop :=
  ∀ i : Instr, i.wellFormed = true → decode (encode i) = .ok i

/-- What the decoder accepts is well formed and is the one record of that instruction. -/
def Obligations.EncodeOfDecode : Prop :=
  ∀ (r : Request) (i : Instr), decode r = .ok i → i.wellFormed = true ∧ encode i = r

/-- Words of every family decode to what they stand for: the headers and codes are written out from the spec's encodings (R50, R52, R61,
R64). What a word of the table stands for beyond them (device 0, every operand byte zero, zero bytes as a frame's value) is the model's
choice, notes/assumptions/5.md. -/
def Obligations.TableWordsDecode : Prop :=
  decodeTableWord 16 0b0000000011111111 = some (.frameRsvdL255 0 0x00#8 (List.replicate 255 0#8)) ∧
  decodeTableWord 16 0b0000011000000011 = some (.frame 0 0x06#8 [0#8, 0#8, 0#8]) ∧
  decodeTableWord 16 0b0000001100000000 = some (.frame 0 0x03#8 []) ∧
  decodeTableWord 8 0b0000 = some (.openDevice 0 true true 0#32 0#32 0#32) ∧
  decodeTableWord 8 0b0001 = some (.close 0) ∧
  decodeTableWord 8 0b0010 = some (.deliver 0 []) ∧
  decodeTableWord 8 0b0100 = some (.send 0 .atomic 0#8 0#16 []) ∧
  decodeTableWord 8 0b1000 = some (.onRead 0) ∧
  decodeTableWord 8 0b1010 = some (.txWrite 0) ∧
  decodeTableWord 8 0b0111 = none ∧ decodeTableWord 8 0b1111 = none

/-- R50, R63, R64: a frame on a line is its type, its length, and exactly that many bytes; length 255 is the reserved encoding and
every other length a valid frame, 0 included (R65). -/
def Obligations.FrameDecodes : Prop :=
  ∀ (dev : Nat) (type length : Byte) (value : List Byte), dev < 256 →
    decode ⟨.line dev, type :: length :: value⟩ =
      if value.length = length.toNat then
        (if length = 0xFF#8 then .ok (.frameRsvdL255 dev type value) else .ok (.frame dev type value))
      else .error .badLength

/-- R61 (the spec's own decision D15): the codes 0x7 and 0xF select no operation, whatever follows. -/
def Obligations.UnusedCodesRejected : Prop :=
  ∀ (dev : Byte) (operands : List Byte),
    decode ⟨.operation, 0x07#8 :: dev :: operands⟩ = .error .unusedCode ∧
    decode ⟨.operation, 0x0F#8 :: dev :: operands⟩ = .error .unusedCode

/-! ## Which operations have a step -/

/-- R128, R124, R186 (the spec's own decision D16): on a closed device every operation but OPEN is refused; on an open device OPEN is
refused. That the transactions and the frames that need an open device are refused with them is the model's choice,
notes/assumptions/7.md and 9.md. -/
def Obligations.LifecycleRefusals : Prop :=
  ∀ (s : State) (k : Nat) (d : Device), s.devices[k]? = some d →
    (d.isOpen = false → ∀ (bs : List Byte) (form : SendForm) (type : Byte) (count : Count) (x : Token),
      exec (.close k) s = .refused .deviceClosed ∧ exec (.deliver k bs) s = .refused .deviceClosed ∧
      exec (.deliverFail k) s = .refused .deviceClosed ∧ exec (.send k form type count bs) s = .refused .deviceClosed ∧
      exec (.writeComplete k x) s = .refused .deviceClosed ∧ exec (.transportClose k) s = .refused .deviceClosed ∧
      exec (.onRead k) s = .refused .deviceClosed ∧ exec (.setReadSize k) s = .refused .deviceClosed ∧
      exec (.txWrite k) s = .refused .deviceClosed ∧ exec (.onWriteComplete k x) s = .refused .deviceClosed ∧
      exec (.onClose k) s = .refused .deviceClosed ∧ exec (.frame k type bs) s = .refused .deviceClosed ∧
      exec (.frameRsvdL255 k type bs) s = .refused .deviceClosed) ∧
    (d.isOpen = true → ∀ (add remove : Bool) (p b c : Token),
      exec (.openDevice k add remove p b c) s = .refused .deviceOpen ∧ exec (.tOpen k p b) s = .refused .deviceOpen)

/-- R110, R112 (the spec's own decision D14), R113 (D27), R77, R81: SEND waits while one is in progress and needs its data; TX_WRITE
needs a SEND in progress; ON_READ is made in PacketReady alone; SET_READ_SIZE only in the two waiting states. That a transaction
requested outside its condition is refused, and an atomic SEND during a stepwise one, is the model's choice, notes/assumptions/9.md and
11.md. -/
def Obligations.EnablingConditions : Prop :=
  ∀ (s : State) (k : Nat) (d : Device), s.devices[k]? = some d → d.isOpen = true →
    (∀ (form : SendForm) (type : Byte) (count : Count) (data : List Byte),
      (d.tx.busy = true → exec (.send k form type count data) s = .refused .senderBusy) ∧
      (d.tx.busy = false → data.length < count.toNat → exec (.send k form type count data) s = .refused .sendDataMissing)) ∧
    (d.tx.busy = false → exec (.txWrite k) s = .refused .senderIdle) ∧
    (¬ (d.rx.fault = .none ∧ 2 ≤ d.rx.acc.toNat ∧ d.rx.acc.toNat - 2 = (d.rx.rbuf.get 1).toNat) →
      exec (.onRead k) s = .refused .packetNotReady) ∧
    (¬ (d.rx.fault = .none ∧ (d.rx.acc.toNat < 2 ∨ d.rx.acc.toNat - 2 < (d.rx.rbuf.get 1).toNat)) →
      exec (.setReadSize k) s = .refused .requestNotDue)

/-! ## DELIVER -/

/-- R71 (the spec's own decision D8): on a faulted device DELIVER and DELIVER_FAIL return `ERR` and change nothing (the delivered bytes
are gone from `RXS`); no transaction is made and the first cause stays. -/
def Obligations.FaultedDeviceReturnsErr : Prop :=
  ∀ (s : State) (k : Nat) (d : Device) (bs : List Byte),
    s.devices[k]? = some d → d.isOpen = true → d.rx.fault ≠ .none →
      exec (.deliver k bs) s =
        .next (s.setDevice k { d with rx := { d.rx with rxs := d.rx.rxs ++ bs }, result := some 0xFFFFFFFF#32 }) ∧
      exec (.deliverFail k) s = .next (s.setDevice k { d with result := some 0xFFFFFFFF#32 })

/-- R72: `acc + n > 256` raises FRAMING_OVERFLOW: `fault` is latched, the result is `ERR`, no byte is stored, `acc` and `RBUF`
are unchanged and no transaction is made, whatever the state and the length byte. -/
def Obligations.DeliverOverflow : Prop :=
  ∀ (s : State) (k : Nat) (d : Device) (bs : List Byte),
    s.devices[k]? = some d → d.isOpen = true → d.rx.fault = .none → 256 < d.rx.acc.toNat + bs.length →
      exec (.deliver k bs) s =
        .next (s.setDevice k
          { d with rx := { d.rx with fault := .framingOverflow, rxs := d.rx.rxs ++ bs }, result := some Config.err })

/-- R72, C1 of 90_conflicts.md: FRAMING_OVERFLOW is raised if and only if `acc + n > 256`, whatever the handler does. -/
def Obligations.OverflowOnlyAboveCapacity : Prop :=
  ∀ (s t : State) (k : Nat) (d e : Device) (bs : List Byte),
    s.devices[k]? = some d → d.isOpen = true → d.rx.fault = .none → exec (.deliver k bs) s = .next t →
      t.devices[k]? = some e → (e.rx.fault = .framingOverflow ↔ 256 < d.rx.acc.toNat + bs.length)

/-- R75 (with R73): a delivery that leaves fewer than two bytes in is appended; SET_READ_SIZE asks for the rest of the header, the
result is `OK`, no packet is handed over. -/
def Obligations.DeliverAwaitingHeader : Prop :=
  ∀ (s : State) (k : Nat) (d : Device) (bs : List Byte),
    s.devices[k]? = some d → d.isOpen = true → d.rx.fault = .none → d.rx.rbuf.wf → d.rx.acc.toNat + bs.length < 2 →
      ∃ m', Appended d.rx.rbuf d.rx.acc.toNat bs m' ∧
        exec (.deliver k bs) s =
          .next (s.setDevice k
            { d with
              rx := { d.rx with rbuf := m', acc := BitVec.ofNat 9 (d.rx.acc.toNat + bs.length), rxs := d.rx.rxs ++ bs }
              trace := d.trace ++ [.setReadSize (BitVec.ofNat 8 (2 - (d.rx.acc.toNat + bs.length)))]
              result := some Config.ok })

/-- R76 (with R73): a delivery that leaves the header in and the payload short is appended; SET_READ_SIZE asks for the missing payload
bytes, the result is `OK`, no packet is handed over. -/
def Obligations.DeliverAwaitingPayload : Prop :=
  ∀ (s : State) (k : Nat) (d : Device) (bs : List Byte),
    s.devices[k]? = some d → d.isOpen = true → d.rx.fault = .none → d.rx.rbuf.wf →
    2 ≤ d.rx.acc.toNat + bs.length → d.rx.acc.toNat + bs.length ≤ 256 →
      ∃ m', Appended d.rx.rbuf d.rx.acc.toNat bs m' ∧
        (d.rx.acc.toNat + bs.length - 2 < (m'.get 1).toNat →
          exec (.deliver k bs) s =
            .next (s.setDevice k
              { d with
                rx := { d.rx with rbuf := m', acc := BitVec.ofNat 9 (d.rx.acc.toNat + bs.length), rxs := d.rx.rxs ++ bs }
                trace := d.trace ++
                  [.setReadSize (BitVec.ofNat 8 ((m'.get 1).toNat - (d.rx.acc.toNat + bs.length - 2)))]
                result := some Config.ok }))

/-- R79, R142 (the spec's own decision D7): a delivery that fits the buffer and runs past the end of the frame raises PACKET_OVERRUN:
the bytes are stored and `acc` advanced, `fault` is latched, the result is `ERR`, no transaction is made, no packet is handed over. -/
def Obligations.DeliverOverrun : Prop :=
  ∀ (s : State) (k : Nat) (d : Device) (bs : List Byte),
    s.devices[k]? = some d → d.isOpen = true → d.rx.fault = .none → d.rx.rbuf.wf →
    2 ≤ d.rx.acc.toNat + bs.length → d.rx.acc.toNat + bs.length ≤ 256 →
      ∃ m', Appended d.rx.rbuf d.rx.acc.toNat bs m' ∧
        ((m'.get 1).toNat < d.rx.acc.toNat + bs.length - 2 →
          exec (.deliver k bs) s =
            .next (s.setDevice k
              { d with
                rx := { acc := BitVec.ofNat 9 (d.rx.acc.toNat + bs.length), fault := .packetOverrun, rbuf := m',
                        rxs := d.rx.rxs ++ bs }
                result := some 0xFFFFFFFF#32 }))

/-- R77, R78: a delivery that completes the frame, with a handler that invokes nothing: ON_READ with the packet, then `acc` <- 0 and
SET_READ_SIZE(2) whatever the status, and the result is the handler's status, bit for bit. `RBUF` is not cleared. -/
def Obligations.DeliverCompletesPacket : Prop :=
  ∀ (s : State) (k : Nat) (d : Device) (bs : List Byte) (a : HandlerAnswer) (rest : List HandlerAnswer) (f : FreeKey),
    s.devices[k]? = some d → d.isOpen = true → d.rx.fault = .none → d.rx.rbuf.wf →
    2 ≤ d.rx.acc.toNat + bs.length → d.rx.acc.toNat + bs.length ≤ 256 →
    Answers d.env.onRead d.fresh a rest f → a.calls = [] →
      ∃ m', Appended d.rx.rbuf d.rx.acc.toNat bs m' ∧
        (d.rx.acc.toNat + bs.length - 2 = (m'.get 1).toNat →
          exec (.deliver k bs) s =
            .next (s.setDevice k
              { d with
                rx := { d.rx with rbuf := m', acc := 0#9, rxs := d.rx.rxs ++ bs }
                trace := d.trace ++
                  [.onRead d.binding.context (m'.get 0) (m'.get 1)
                      ((List.range (m'.get 1).toNat).map fun i => m'.get (2 + i)) a.status,
                   .setReadSize 2#8]
                env := { d.env with onRead := rest }
                fresh := f
                result := some a.status }))

/-- R77 (with R162 and R183, the spec's own decisions D26, D19): the same for any handler: what it invokes runs inside the DELIVER,
after ON_READ is made and before `acc` <- 0, and DELIVER finishes on the device as the handler left it. -/
def Obligations.DeliverRunsHandlerInside : Prop :=
  ∀ (s : State) (k : Nat) (d : Device) (bs : List Byte) (a : HandlerAnswer) (rest : List HandlerAnswer) (f : FreeKey),
    s.devices[k]? = some d → d.isOpen = true → d.rx.fault = .none → d.rx.rbuf.wf →
    2 ≤ d.rx.acc.toNat + bs.length → d.rx.acc.toNat + bs.length ≤ 256 →
    Answers d.env.onRead d.fresh a rest f →
      ∃ m', Appended d.rx.rbuf d.rx.acc.toNat bs m' ∧
        (d.rx.acc.toNat + bs.length - 2 = (m'.get 1).toNat →
          ∀ (u : State) (e : Device),
            runCalls (some k) a.calls
              (s.setDevice k
                { d with
                  rx := { d.rx with rbuf := m', acc := BitVec.ofNat 9 (d.rx.acc.toNat + bs.length),
                                    rxs := d.rx.rxs ++ bs }
                  trace := d.trace ++
                    [.onRead d.binding.context (m'.get 0) (m'.get 1)
                      ((List.range (m'.get 1).toNat).map fun i => m'.get (2 + i)) a.status]
                  env := { d.env with onRead := rest }
                  fresh := f }) = .next u →
            u.devices[k]? = some e →
              e.isOpen = true ∧
              exec (.deliver k bs) s =
                .next (u.setDevice k
                  { e with
                    rx := { e.rx with acc := 0#9 }
                    trace := e.trace ++ [.setReadSize 2#8]
                    result := some a.status }))

/-- R80, R143 (the spec's own decision D10): DELIVER_FAIL on an unfaulted device latches TRANSPORT_READ_FAIL and returns `ERR`; nothing
else changes and no transaction is made. -/
def Obligations.DeliverFailLatches : Prop :=
  ∀ (s : State) (k : Nat) (d : Device),
    s.devices[k]? = some d → d.isOpen = true → d.rx.fault = .none →
      exec (.deliverFail k) s =
        .next (s.setDevice k
          { d with rx := { d.rx with fault := .transportReadFail }, result := some 0xFFFFFFFF#32 })

/-- R82 (derived in the spec): from an unfaulted rest state a delivery of zero bytes only repeats the request and returns `OK`. -/
def Obligations.EmptyDeliveryRepeatsRequest : Prop :=
  ∀ (s : State) (k : Nat) (d : Device),
    s.devices[k]? = some d → d.isOpen = true → d.rx.fault = .none → d.rx.acc.toNat ≤ 256 → d.AtRest →
      exec (.deliver k []) s =
        .next (s.setDevice k
          { d with trace := d.trace ++ [.setReadSize d.nextReadSize], result := some 0#32 })

/-- R81 (the spec's own decision D11): every DELIVER that ends without a fault makes SET_READ_SIZE exactly once, as its last
transaction, with the value `next_read_size` has after the step; one that ends faulted makes no transaction. -/
def Obligations.DeliverEndsWithRequest : Prop :=
  ∀ (s t : State) (k : Nat) (d e : Device) (bs : List Byte),
    s.devices[k]? = some d → exec (.deliver k bs) s = .next t → t.devices[k]? = some e →
      (e.rx.fault ≠ .none ∧ e.trace = d.trace) ∨
      (e.rx.fault = .none ∧ ∃ before, e.trace = d.trace ++ before ++ [.setReadSize e.nextReadSize] ∧
        ∀ n, .setReadSize n ∉ before)

/-- R83 (derived in the spec): independence of chunking. Whatever way the bytes of one frame are cut into deliveries, empty ones
allowed, and whatever the handler does: while the frame is incomplete every delivery returns `OK`, no packet is handed over and
`next_read_size` is the number of bytes needed to finish the header or the frame; with all of it delivered exactly one packet has been
handed over, `acc` = 0 and `next_read_size` = 2; nothing faults. With handlers that invoke nothing, the deliveries all have a step. -/
def Obligations.ChunkingIndependence : Prop :=
  ∀ (s : State) (k : Nat) (d : Device) (type : Byte) (value : List Byte) (ds : List (List Byte)) (more : List Byte),
    s.devices[k]? = some d → d.isOpen = true → d.rx.fault = .none → d.rx.acc = 0#9 → d.rx.rbuf.wf →
    value.length ≤ 254 → ds.flatten ++ more = type :: BitVec.ofNat 8 value.length :: value →
      (d.QuietReads → Safe (runAll (ds.map (Instr.deliver k)) s)) ∧
      ∀ t, runAll (ds.map (Instr.deliver k)) s = .next t →
        ∃ e, t.devices[k]? = some e ∧ e.isOpen = true ∧ e.rx.fault = .none ∧
          (more ≠ [] →
            (ds ≠ [] → e.result = some 0#32) ∧ packetsRead e.trace = packetsRead d.trace ∧
            e.nextReadSize.toNat =
              if ds.flatten.length < 2 then 2 - ds.flatten.length else 2 + value.length - ds.flatten.length) ∧
          (more = [] →
            packetsRead e.trace = packetsRead d.trace ++ [(type, BitVec.ofNat 8 value.length, value)] ∧
            e.rx.acc = 0#9 ∧ e.nextReadSize = 2#8)

/-- R84 (derived in the spec), R37: an honest transport, which never delivers more than was requested, causes no fault on a well-formed
stream, and the frames of the stream are handed over, each exactly once and in order, whatever the handler does. With handlers that
invoke nothing, the deliveries all have a step. -/
def Obligations.HonestTransportNeverFaults : Prop :=
  ∀ (s : State) (k : Nat) (d : Device) (frames : List (Byte × List Byte)) (ds : List (List Byte)) (more : List Byte),
    s.devices[k]? = some d → d.isOpen = true → d.rx.fault = .none → d.rx.acc = 0#9 → d.rx.rbuf.wf →
    (∀ f ∈ frames, f.2.length ≤ 254) →
    ds.flatten ++ more = (frames.map fun f => f.1 :: BitVec.ofNat 8 f.2.length :: f.2).flatten →
    honestRun k ds s →
      (d.QuietReads → Safe (runAll (ds.map (Instr.deliver k)) s)) ∧
      ∀ t, runAll (ds.map (Instr.deliver k)) s = .next t →
        ∃ e, t.devices[k]? = some e ∧ e.isOpen = true ∧ e.rx.fault = .none ∧
          (∃ n, packetsRead e.trace =
            packetsRead d.trace ++ (frames.take n).map fun f => (f.1, BitVec.ofNat 8 f.2.length, f.2)) ∧
          (more = [] →
            packetsRead e.trace = packetsRead d.trace ++ frames.map fun f => (f.1, BitVec.ofNat 8 f.2.length, f.2))

/-- R85 (derived in the spec): a frame whose length byte is 255 never completes: however its bytes are delivered, no packet is handed
over, and the only fault is FRAMING_OVERFLOW. -/
def Obligations.ReservedLengthNeverCompletes : Prop :=
  ∀ (s t : State) (k : Nat) (d e : Device) (type : Byte) (value : List Byte) (ds : List (List Byte)),
    s.devices[k]? = some d → d.isOpen = true → d.rx.fault = .none → d.rx.acc = 0#9 → d.rx.rbuf.wf →
    ds.flatten = type :: 0xFF#8 :: value → runAll (ds.map (Instr.deliver k)) s = .next t → t.devices[k]? = some e →
      packetsRead e.trace = packetsRead d.trace ∧ (e.rx.fault = .none ∨ e.rx.fault = .framingOverflow) ∧
        (e.rx.fault = .none → 2 + value.length ≤ 256)

/-- R23 (derived in the spec): what `RBUF` holds at and above `acc` is never observed: two machines that differ in such bytes alone end
in states that differ in such bytes alone, whatever the instruction. -/
def Obligations.StaleBytesNeverObserved : Prop :=
  ∀ (i : Instr) (s t : State) (k : Nat) (d d' : Device),
    s.devices[k]? = some d → d.rx.acc.toNat ≤ 256 → SameButStale d d' → exec i s = .next t →
      ∃ e e', t.devices[k]? = some e ∧ exec i (s.setDevice k d') = .next (t.setDevice k e') ∧ SameButStale e e'

/-- R14, R147 (the spec's own decision D8), R88: a latched fault leaves a device only through CLOSE: after any instruction either the
device was closed in it, or the device is open with the same cause, the same `acc` and `RBUF`, and handed over no packet. -/
def Obligations.FaultLeavesOnlyByClose : Prop :=
  ∀ (i : Instr) (s t : State) (k : Nat) (d : Device),
    s.devices[k]? = some d → d.isOpen = true → d.rx.fault ≠ .none → exec i s = .next t →
      ∃ e made, t.devices[k]? = some e ∧ e.trace = d.trace ++ made ∧
        (.tClose ∈ made ∨
          (e.isOpen = true ∧ e.rx.fault = d.rx.fault ∧ e.rx.acc = d.rx.acc ∧ e.rx.rbuf = d.rx.rbuf ∧
            ∀ ev ∈ made, isOnRead ev = false))

/-! ## ON_READ, SET_READ_SIZE, and frames on the line -/

/-- R77, R59, for the ON_READ row requested by itself (its meaning is the model's choice, notes/assumptions/9.md): ON_READ at
PacketReady, with a handler that invokes nothing: the packet is RBUF[0], RBUF[1], RBUF[2 .. 1 + L]; then `acc` <- 0, SET_READ_SIZE(2),
and the handler's status is the result. -/
def Obligations.OnReadHandsOver : Prop :=
  ∀ (s : State) (k : Nat) (d : Device) (a : HandlerAnswer) (rest : List HandlerAnswer) (f : FreeKey),
    s.devices[k]? = some d → d.isOpen = true → d.rx.fault = .none → 2 ≤ d.rx.acc.toNat → d.rx.acc.toNat ≤ 256 →
    d.rx.acc.toNat - 2 = (d.rx.rbuf.get 1).toNat → Answers d.env.onRead d.fresh a rest f → a.calls = [] →
      exec (.onRead k) s =
        .next (s.setDevice k
          { d with
            rx := { d.rx with acc := 0#9 }
            trace := d.trace ++
              [.onRead d.binding.context (d.rx.rbuf.get 0) (d.rx.rbuf.get 1)
                  ((List.range (d.rx.acc.toNat - 2)).map fun i => d.rx.rbuf.get (2 + i)) a.status,
               .setReadSize 2#8]
            env := { d.env with onRead := rest }
            fresh := f
            result := some a.status })

/-- R183 (the spec's own decision D19): a handler that closes its own device from inside ON_READ has no step: no DELIVER that completes
a packet answers a next state, and neither does the ON_READ row requested by itself (the model's choice, notes/assumptions/9.md). If the
CLOSE is the first thing it invokes, the refusal says so. -/
def Obligations.CloseInsideOnReadRefused : Prop :=
  ∀ (s : State) (k : Nat) (d : Device) (bs : List Byte) (a : HandlerAnswer) (rest : List HandlerAnswer) (f : FreeKey),
    s.devices[k]? = some d → d.isOpen = true → d.rx.fault = .none → d.rx.rbuf.wf →
    2 ≤ d.rx.acc.toNat + bs.length → d.rx.acc.toNat + bs.length ≤ 256 →
    Answers d.env.onRead d.fresh a rest f → .close k ∈ a.calls →
      (∃ m', Appended d.rx.rbuf d.rx.acc.toNat bs m' ∧
        (d.rx.acc.toNat + bs.length - 2 = (m'.get 1).toNat →
          (∀ t, exec (.deliver k bs) s ≠ .next t) ∧
          (∀ cs, a.calls = .close k :: cs → exec (.deliver k bs) s = .refused .closeInsideOnRead))) ∧
      (2 ≤ d.rx.acc.toNat → d.rx.acc.toNat - 2 = (d.rx.rbuf.get 1).toNat →
        (∀ t, exec (.onRead k) s ≠ .next t) ∧
        (∀ cs, a.calls = .close k :: cs → exec (.onRead k) s = .refused .closeInsideOnRead))

/-- R183 (the spec's own decision D19), R39, R152: a SEND of any form, type and data invoked from inside ON_READ, under the SEND's own
conditions, runs inside the DELIVER that completes the packet. Its effect `e` is that of the SEND on the device as ON_READ leaves it; its
TX_WRITEs, and no other transaction, lie between ON_READ and SET_READ_SIZE; its result goes to the handler; it touches neither `open` nor
the receive datapath, and DELIVER finishes on `e` as ever. That the form `start` only starts there is the model's choice,
notes/assumptions/13.md. The ON_READ row requested by itself (the model's choice, notes/assumptions/9.md) does what the DELIVER of no
bytes does. -/
def Obligations.SendInsideOnRead : Prop :=
  ∀ (s : State) (k : Nat) (d : Device) (bs : List Byte) (a : HandlerAnswer) (rest : List HandlerAnswer) (f : FreeKey)
    (form : SendForm) (type : Byte) (count : Count) (data : List Byte),
    s.devices[k]? = some d → d.isOpen = true → d.rx.fault = .none → d.rx.rbuf.wf →
    2 ≤ d.rx.acc.toNat + bs.length → d.rx.acc.toNat + bs.length ≤ 256 →
    Answers d.env.onRead d.fresh a rest f → a.calls = [.send k form type count data] →
    d.tx.busy = false → count.toNat ≤ data.length →
      (∃ m', Appended d.rx.rbuf d.rx.acc.toNat bs m' ∧
        (d.rx.acc.toNat + bs.length - 2 = (m'.get 1).toNat →
          let made := { d with
            rx := { d.rx with
              rbuf := m', acc := BitVec.ofNat 9 (d.rx.acc.toNat + bs.length), rxs := d.rx.rxs ++ bs }
            trace := d.trace ++
              [.onRead d.binding.context (m'.get 0) (m'.get 1)
                ((List.range (m'.get 1).toNat).map fun i => m'.get (2 + i)) a.status]
            env := { d.env with onRead := rest }
            fresh := f }
          ∃ (e : Device) (writes : List Event),
            exec (.send k form type count data) (s.setDevice k made) = .next (s.setDevice k e) ∧
            e.rx = made.rx ∧ e.isOpen = true ∧
            e.trace = made.trace ++ writes ∧ (∀ ev ∈ writes, ∃ bytes ok, ev = .txWrite bytes ok) ∧
            exec (.deliver k bs) s =
              .next (s.setDevice k
                { e with
                  rx := { e.rx with acc := 0#9 }
                  trace := made.trace ++ writes ++ [.returned e.result, .setReadSize 2#8]
                  result := some a.status }))) ∧
      (bs = [] → d.rx.acc.toNat - 2 = (d.rx.rbuf.get 1).toNat → exec (.onRead k) s = exec (.deliver k bs) s)

/-- R56, R81 (decision D11), for the SET_READ_SIZE row requested by itself (the model's choice, notes/assumptions/9.md): it requests
`next_read_size`: 2 - `acc` while the header is awaited, the missing payload bytes afterwards; nothing else changes. That the result
field keeps what it held is 12.md. -/
def Obligations.SetReadSizeRequests : Prop :=
  ∀ (s : State) (k : Nat) (d : Device),
    s.devices[k]? = some d → d.isOpen = true → d.rx.fault = .none →
      (d.rx.acc.toNat < 2 →
        exec (.setReadSize k) s =
          .next (s.setDevice k { d with trace := d.trace ++ [.setReadSize (BitVec.ofNat 8 (2 - d.rx.acc.toNat))] })) ∧
      (2 ≤ d.rx.acc.toNat → d.rx.acc.toNat - 2 < (d.rx.rbuf.get 1).toNat →
        exec (.setReadSize k) s =
          .next (s.setDevice k
            { d with trace := d.trace ++
                [.setReadSize (BitVec.ofNat 8 ((d.rx.rbuf.get 1).toNat - (d.rx.acc.toNat - 2)))] }))

/-- R50, R84, R67 (FEED; that this is the row's meaning is the model's choice, notes/assumptions/7.md): a frame that arrives on the
line of an open device with no partial frame is handed over, exactly once, with its type, length and value. -/
def Obligations.FrameIsHandedOver : Prop :=
  ∀ (s : State) (k : Nat) (d : Device) (type : Byte) (value : List Byte) (a : HandlerAnswer)
    (rest : List HandlerAnswer) (f : FreeKey),
    s.devices[k]? = some d → d.isOpen = true → d.rx.fault = .none → d.rx.acc = 0#9 → d.rx.rbuf.wf →
    value.length ≤ 254 → Answers d.env.onRead d.fresh a rest f → a.calls = [] →
      ∃ m', Appended d.rx.rbuf 0 (type :: BitVec.ofNat 8 value.length :: value) m' ∧
        exec (.frame k type value) s =
          .next (s.setDevice k
            { d with
              rx := { acc := 0#9, fault := .none, rbuf := m',
                      rxs := d.rx.rxs ++ type :: BitVec.ofNat 8 value.length :: value }
              trace := d.trace ++
                (if value = [] then [] else [.setReadSize (BitVec.ofNat 8 value.length)]) ++
                [.onRead d.binding.context type (BitVec.ofNat 8 value.length) value a.status, .setReadSize 2#8]
              env := { d.env with onRead := rest }
              fresh := f
              result := some a.status })

/-- R85, R64 (FEED; that this is the row's meaning is the model's choice, notes/assumptions/7.md): a frame of the reserved length 255
that arrives on the line of an open device with no partial frame: the header is taken, 255 bytes are requested, and their
delivery raises FRAMING_OVERFLOW; nothing of them is stored and no packet is handed over. -/
def Obligations.ReservedFrameOverflows : Prop :=
  ∀ (s : State) (k : Nat) (d : Device) (type : Byte) (value : List Byte),
    s.devices[k]? = some d → d.isOpen = true → d.rx.fault = .none → d.rx.acc = 0#9 → d.rx.rbuf.wf →
    value.length = 255 →
      ∃ m', Appended d.rx.rbuf 0 [type, 0xFF#8] m' ∧
        exec (.frameRsvdL255 k type value) s =
          .next (s.setDevice k
            { d with
              rx := { acc := 2#9, fault := .framingOverflow, rbuf := m', rxs := d.rx.rxs ++ type :: 0xFF#8 :: value }
              trace := d.trace ++ [.setReadSize 255#8]
              result := some 0xFFFFFFFF#32 })

/-- R67 (FEED, the spec's own decision D22, as the row's meaning: notes/assumptions/7.md): on a faulted device nothing of an arriving
frame is delivered. -/
def Obligations.FaultedDeviceTakesNoFrame : Prop :=
  ∀ (s : State) (k : Nat) (d : Device) (type : Byte) (value : List Byte),
    s.devices[k]? = some d → d.isOpen = true → d.rx.fault ≠ .none →
      exec (.frame k type value) s = .next s ∧ exec (.frameRsvdL255 k type value) s = .next s

/-! ## The sender -/

/-- R101 (with R100, R102, R103, R104, R106): SEND with every write accepted makes exactly max(1, ceil(count / 254)) TX_WRITE
transactions, in order, chunk `i` being `[type, len_i]` and the `len_i` = min(254, count - 254 i) bytes of data from 254 i on; the
result is `OK` and no register changes. -/
def Obligations.SendAllAccepted : Prop :=
  ∀ (s : State) (k : Nat) (d : Device) (type : Byte) (count : Count) (data : List Byte) (rest : List WriteAnswer),
    s.devices[k]? = some d → d.isOpen = true → d.tx.busy = false → count.toNat ≤ data.length →
    d.env.txWrite = List.replicate (max 1 ((count.toNat + 253) / 254)) .accepted ++ rest →
      let packets := (List.range (max 1 ((count.toNat + 253) / 254))).map fun i =>
        type :: BitVec.ofNat 8 (min 254 (count.toNat - 254 * i)) ::
          (data.drop (254 * i)).take (min 254 (count.toNat - 254 * i))
      exec (.send k .atomic type count data) s =
        .next (s.setDevice k
          { d with
            tx := { d.tx with txs := d.tx.txs ++ packets.flatten }
            trace := d.trace ++ packets.map fun p => .txWrite p true
            env := { d.env with txWrite := rest }
            result := some Config.ok })

/-- R105: if the write of chunk `j` fails, SEND makes no further TX_WRITE and returns `ERR`; chunks 0 to `j - 1` stay sent, and nothing
is latched. That the bytes of chunk `j` which reach `TXS` are its first `sent` ones, `sent` being part of the transport's answer, is the
model's choice, notes/assumptions/10.md; R105 and U14 leave them to the transport. -/
def Obligations.SendAbortsOnFailure : Prop :=
  ∀ (s : State) (k : Nat) (d : Device) (type : Byte) (count : Count) (data : List Byte) (j sent : Nat)
    (rest : List WriteAnswer),
    s.devices[k]? = some d → d.isOpen = true → d.tx.busy = false → count.toNat ≤ data.length →
    j < max 1 ((count.toNat + 253) / 254) →
    d.env.txWrite = List.replicate j .accepted ++ .failure sent :: rest →
      let packet := fun i : Nat =>
        type :: BitVec.ofNat 8 (min 254 (count.toNat - 254 * i)) ::
          (data.drop (254 * i)).take (min 254 (count.toNat - 254 * i))
      exec (.send k .atomic type count data) s =
        .next (s.setDevice k
          { d with
            tx := { d.tx with txs := d.tx.txs ++ ((List.range j).map packet).flatten ++ (packet j).take sent }
            trace := d.trace ++ ((List.range j).map fun i => .txWrite (packet i) true) ++ [.txWrite (packet j) false]
            env := { d.env with txWrite := rest }
            result := some Config.err })

/-- R100, R104, R105, R106: whatever the transport answers, SEND completes: it writes the first `m` packets, each but the last
accepted, and all of them accepted, `m` being their number, exactly if the result is `OK`; only `TXS`, the answers and the counter
change besides. -/
def Obligations.SendCompletes : Prop :=
  ∀ (s : State) (k : Nat) (d : Device) (type : Byte) (count : Count) (data : List Byte),
    s.devices[k]? = some d → d.isOpen = true → d.tx.busy = false → count.toNat ≤ data.length →
      ∃ (m : Nat) (ok : Bool) (txs : List Byte) (writes : List WriteAnswer) (f : FreeKey),
        1 ≤ m ∧ m ≤ max 1 ((count.toNat + 253) / 254) ∧ (ok = true → m = max 1 ((count.toNat + 253) / 254)) ∧
        exec (.send k .atomic type count data) s =
          .next (s.setDevice k
            { d with
              tx := { d.tx with txs := txs }
              trace := d.trace ++ (List.range m).map fun i =>
                .txWrite
                  (type :: BitVec.ofNat 8 (min 254 (count.toNat - 254 * i)) ::
                    (data.drop (254 * i)).take (min 254 (count.toNat - 254 * i)))
                  (decide (i + 1 < m) || ok)
              env := { d.env with txWrite := writes }
              fresh := f
              result := some (if ok then 0#32 else 0xFFFFFFFF#32) })

/-- R107: SEND with `count` = 0 writes exactly one packet, `[type, 00]`, whatever the transport answers, and does not read `data`.
That a prefix of a packet whose write failed reaches `TXS` (`wireBytes`) is the model's choice, notes/assumptions/10.md. -/
def Obligations.ZeroLengthSend : Prop :=
  ∀ (s : State) (k : Nat) (d : Device) (type : Byte) (data : List Byte) (a : WriteAnswer) (rest : List WriteAnswer) (f : FreeKey),
    s.devices[k]? = some d → d.isOpen = true → d.tx.busy = false → WriteAnswers d.env.txWrite d.fresh a rest f →
      exec (.send k .atomic type 0#16 data) s =
        .next (s.setDevice k
          { d with
            tx := { d.tx with txs := d.tx.txs ++ wireBytes [type, 0#8] a }
            trace := d.trace ++ [.txWrite [type, 0#8] (decide (a = .accepted))]
            env := { d.env with txWrite := rest }
            fresh := f
            result := some (if a = .accepted then Config.ok else Config.err) })

/-- R102, R103: the payloads of the packets of a SEND are its data, cut in order: each has at most 254 bytes, every one but the last
exactly 254, and one after another they are the first `count` bytes of the data. -/
def Obligations.ChunksAreTheData : Prop :=
  ∀ (data : List Byte) (count : Nat), count ≤ data.length →
    (chunks data count).flatten = data.take count ∧
    (chunks data count).length = max 1 ((count + 253) / 254) ∧
    (∀ c ∈ chunks data count, c.length ≤ 254) ∧
    (∀ c ∈ (chunks data count).dropLast, c.length = 254)

/-- R110 (the spec's own decision D14): SEND_START sets the registers of the stepwise form and reports no result. That the result field
then holds none is the model's choice, notes/assumptions/12.md. -/
def Obligations.SendStart : Prop :=
  ∀ (s : State) (k : Nat) (d : Device) (type : Byte) (count : Count) (data : List Byte),
    s.devices[k]? = some d → d.isOpen = true → d.tx.busy = false → count.toNat ≤ data.length →
      exec (.send k .start type count data) s =
        .next (s.setDevice k
          { d with
            tx := { d.tx with busy := true, type := type, off := 0#16, rem := count, sdata := data.take count.toNat }
            result := none })

/-- R110 (the spec's own decision D14), R57: TX_WRITE with a SEND in progress (SEND_CHUNK) writes `[tx_type, len]` and the `len` =
min(254, tx_rem) bytes of `SDATA` from `tx_off` on. On failure the SEND completes with `ERR`; else `tx_off` and `tx_rem` advance, and
with nothing left the SEND completes with `OK`. That the row requested by itself is SEND_CHUNK is the model's choice,
notes/assumptions/9.md; that the first `sent` bytes of a failed packet reach `TXS`, 10.md; that the result field keeps what it held
while packets are to come, 12.md. -/
def Obligations.TxWriteWritesChunk : Prop :=
  ∀ (s : State) (k : Nat) (d : Device) (a : WriteAnswer) (rest : List WriteAnswer) (f : FreeKey),
    s.devices[k]? = some d → d.tx.busy = true → d.SenderSound → WriteAnswers d.env.txWrite d.fresh a rest f →
      let len := min 254 d.tx.rem.toNat
      let bytes := d.tx.type :: BitVec.ofNat 8 len :: (d.tx.sdata.drop d.tx.off.toNat).take len
      let off := BitVec.ofNat 16 (d.tx.off.toNat + len)
      (∀ sent, a = .failure sent →
        exec (.txWrite k) s =
          .next (s.setDevice k
            { d with
              tx := { d.tx with busy := false, sdata := [], txs := d.tx.txs ++ bytes.take sent }
              trace := d.trace ++ [.txWrite bytes false]
              env := { d.env with txWrite := rest }
              fresh := f
              result := some 0xFFFFFFFF#32 })) ∧
      (a = .accepted → d.tx.rem.toNat ≤ 254 →
        exec (.txWrite k) s =
          .next (s.setDevice k
            { d with
              tx := { d.tx with busy := false, off := off, rem := 0#16, sdata := [], txs := d.tx.txs ++ bytes }
              trace := d.trace ++ [.txWrite bytes true]
              env := { d.env with txWrite := rest }
              fresh := f
              result := some 0#32 })) ∧
      (a = .accepted → 254 < d.tx.rem.toNat →
        exec (.txWrite k) s =
          .next (s.setDevice k
            { d with
              tx := { d.tx with off := off, rem := BitVec.ofNat 16 (d.tx.rem.toNat - 254), txs := d.tx.txs ++ bytes }
              trace := d.trace ++ [.txWrite bytes true]
              env := { d.env with txWrite := rest }
              fresh := f }))

/-- R111 (derived in the spec): the two forms of SEND agree: for the same arguments and the same answers the stepwise form makes the
same transactions in the same order and reports the same result as the atomic form, and ends idle. The steps are the TX_WRITE row, which
is SEND_CHUNK by the model's choice, notes/assumptions/9.md. -/
def Obligations.StepwiseSendAgrees : Prop :=
  ∀ (s : State) (k : Nat) (d : Device) (type : Byte) (count : Count) (data : List Byte),
    s.devices[k]? = some d → d.isOpen = true → d.tx.busy = false → count.toNat ≤ data.length →
      ∃ e e', exec (.send k .atomic type count data) s = .next (s.setDevice k e) ∧
        andThen (exec (.send k .start type count data) s) (runWrites k (max 1 ((count.toNat + 253) / 254))) =
          .next (s.setDevice k e') ∧
        e'.trace = e.trace ∧ e'.result = e.result ∧ e'.env = e.env ∧ e'.fresh = e.fresh ∧ e'.tx.txs = e.tx.txs ∧
        e'.tx.busy = false ∧ e'.rx = e.rx ∧ e'.isOpen = true ∧ e'.binding = e.binding

/-- R57, R64, R102: whatever the instruction, every TX_WRITE made in it carries one wire frame with a length of at most 254; the
reserved length 255 is never sent. -/
def Obligations.OnlyFramesAreWritten : Prop :=
  ∀ (i : Instr) (s t : State) (k : Nat) (d e : Device),
    exec i s = .next t → s.devices[k]? = some d → t.devices[k]? = some e →
      ∃ made, e.trace = d.trace ++ made ∧ ∀ ev ∈ made, carriesFrame ev

/-! ## The lifecycle -/

/-- R120 (its SET_READ_SIZE: the spec's own decision D11), R22, R170: OPEN with both hooks and every answer favourable: T_OPEN, then
everything zeroed (`open` 1, `acc` 0, `fault` 0, `RBUF` all 0, `tx_busy` 0), SET_READ_SIZE(2), and `OK`. -/
def Obligations.OpenSucceeds : Prop :=
  ∀ (s : State) (k : Nat) (d : Device) (p b c h : Token) (handles : List (Option Token)) (allocs installs : List Bool)
    (f1 f2 f3 : FreeKey),
    s.devices[k]? = some d → d.isOpen = false →
    Taken d.env.tOpen (Config.freeTOpen d.fresh) d.fresh (some h) handles f1 →
    Taken d.env.alloc (Config.freeAlloc f1) f1 true allocs f2 →
    Taken d.env.install (Config.freeInstall f2) f2 true installs f3 →
      ∃ tx : Tx, tx.busy = false ∧ tx.sdata = [] ∧ tx.txs = [] ∧
        exec (.openDevice k true true p b c) s =
          .next (s.setDevice k
            { isOpen := true
              rx := { acc := 0#9, fault := .none, rbuf := [], rxs := [] }
              tx := tx
              binding := { handle := h, port := p, baudrate := b, context := c }
              trace := d.trace ++ [.tOpen p b (some h), .setReadSize 2#8]
              env := { d.env with tOpen := handles, alloc := allocs, install := installs }
              fresh := f3.next
              result := some 0#32 })

/-- R121: OPEN without both hooks returns `ERR` before the transport is touched; nothing changes. -/
def Obligations.OpenNeedsBothHooks : Prop :=
  ∀ (s : State) (k : Nat) (d : Device) (add remove : Bool) (p b c : Token),
    s.devices[k]? = some d → d.isOpen = false → (add && remove) = false →
      exec (.openDevice k add remove p b c) s = .next (s.setDevice k { d with result := some 0xFFFFFFFF#32 })

/-- R122, R149: OPEN fails, returns `ERR` and leaves the device closed and its registers as they were, when the transport cannot be
opened (no T_CLOSE: nothing was opened), when allocation fails, and when installing fails (the connection is closed again).
That the registers are as they were when installing fails is the model's choice, notes/assumptions/16.md. -/
def Obligations.OpenFailures : Prop :=
  ∀ (s : State) (k : Nat) (d : Device) (p b c : Token) (answer : Option Token) (handles : List (Option Token)) (f1 : FreeKey),
    s.devices[k]? = some d → d.isOpen = false →
    Taken d.env.tOpen (Config.freeTOpen d.fresh) d.fresh answer handles f1 →
      (answer = none →
        exec (.openDevice k true true p b c) s =
          .next (s.setDevice k
            { d with
              trace := d.trace ++ [.tOpen p b none]
              env := { d.env with tOpen := handles }
              fresh := f1
              result := some 0xFFFFFFFF#32 })) ∧
      (∀ (h : Token) (alloc : Bool) (allocs : List Bool) (f2 : FreeKey), answer = some h →
        Taken d.env.alloc (Config.freeAlloc f1) f1 alloc allocs f2 →
          (alloc = false →
            exec (.openDevice k true true p b c) s =
              .next (s.setDevice k
                { d with
                  trace := d.trace ++ [.tOpen p b (some h), .tClose]
                  env := { d.env with tOpen := handles, alloc := allocs }
                  fresh := f2
                  result := some 0xFFFFFFFF#32 })) ∧
          (∀ (installs : List Bool) (f3 : FreeKey), alloc = true →
            Taken d.env.install (Config.freeInstall f2) f2 false installs f3 →
              exec (.openDevice k true true p b c) s =
                .next (s.setDevice k
                  { d with
                    trace := d.trace ++ [.tOpen p b (some h), .tClose]
                    env := { d.env with tOpen := handles, alloc := allocs, install := installs }
                    fresh := f3
                    result := some 0xFFFFFFFF#32 })))

/-- R123 (the spec's own decisions D5, D18; `next_read_size`: D11): CLOSE on an open device, a fault or a partial frame or a SEND in
progress notwithstanding: T_CLOSE and no other transaction, `open` 0, `tx_busy` 0, `next_read_size` 0, result `OK`; no other device
changes. That CLOSE leaves the streams `rxs` and `txs` as they are is the model's choice, notes/assumptions/10.md. -/
def Obligations.CloseClosesDevice : Prop :=
  ∀ (s : State) (k : Nat) (d : Device), s.devices[k]? = some d → d.isOpen = true →
    ∃ e, exec (.close k) s = .next (s.setDevice k e) ∧ e.isOpen = false ∧ e.tx.busy = false ∧ e.result = some 0#32 ∧
      e.trace = d.trace ++ [.tClose] ∧ e.env = d.env ∧ e.nextReadSize = 0#8 ∧ e.rxState = .closed ∧
      e.rx.rxs = d.rx.rxs ∧ e.tx.txs = d.tx.txs ∧ e.Inv

/-- R147, R22 (the spec's own decisions D8, D11): OPEN after CLOSE clears a latched fault: the device awaits a header again and asks for
2 bytes. -/
def Obligations.ReopenClearsFault : Prop :=
  ∀ (s : State) (k : Nat) (d : Device) (p b c h : Token) (handles : List (Option Token)) (allocs installs : List Bool),
    s.devices[k]? = some d → d.isOpen = true → d.env.tOpen = some h :: handles → d.env.alloc = true :: allocs →
    d.env.install = true :: installs →
      ∃ e, runAll [.close k, .openDevice k true true p b c] s = .next (s.setDevice k e) ∧ e.Clean ∧
        e.rxState = .awaitingHeader ∧ e.nextReadSize = 2#8 ∧ (∀ a, e.rx.rbuf.get a = 0#8) ∧ e.tx.busy = false ∧
        e.trace = d.trace ++ [.tClose, .tOpen p b (some h), .setReadSize 2#8] ∧ e.result = some 0#32

/-- R125: WRITE_COMPLETE, and ON_WRITE_COMPLETE by itself, with a handler that invokes nothing: ON_WRITE_COMPLETE with the count passed
through unchanged, and the handler's status is the result; no register changes. -/
def Obligations.WriteCompletePassesThrough : Prop :=
  ∀ (i : Instr) (s : State) (k : Nat) (d : Device) (x : Token) (a : HandlerAnswer) (rest : List HandlerAnswer) (f : FreeKey),
    i = .writeComplete k x ∨ i = .onWriteComplete k x →
    s.devices[k]? = some d → d.isOpen = true → Answers d.env.onWriteComplete d.fresh a rest f → a.calls = [] →
      exec i s =
        .next (s.setDevice k
          { d with
            trace := d.trace ++ [.onWriteComplete d.binding.context x a.status]
            env := { d.env with onWriteComplete := rest }
            fresh := f
            result := some a.status })

/-- R126 (the spec's own decision D25): TRANSPORT_CLOSE, and ON_CLOSE by itself, with a handler that invokes nothing: ON_CLOSE, and its
status is the result; the device is not closed and no register changes. -/
def Obligations.TransportClosePassesThrough : Prop :=
  ∀ (i : Instr) (s : State) (k : Nat) (d : Device) (a : HandlerAnswer) (rest : List HandlerAnswer) (f : FreeKey),
    i = .transportClose k ∨ i = .onClose k →
    s.devices[k]? = some d → d.isOpen = true → Answers d.env.onClose d.fresh a rest f → a.calls = [] →
      exec i s =
        .next (s.setDevice k
          { d with
            trace := d.trace ++ [.onClose d.binding.context a.status]
            env := { d.env with onClose := rest }
            fresh := f
            result := some a.status })

/-- R126, R182 (the spec's own decisions D19, D25): a handler may close its device from inside ON_CLOSE: the CLOSE runs inside, its
result goes to the handler, the device is closed when TRANSPORT_CLOSE returns, and the result is the handler's status. -/
def Obligations.CloseInsideOnClose : Prop :=
  ∀ (s : State) (k : Nat) (d : Device) (r : Status) (rest : List HandlerAnswer),
    s.devices[k]? = some d → d.isOpen = true → d.env.onClose = { status := r, calls := [.close k] } :: rest →
      ∃ e, exec (.transportClose k) s = .next (s.setDevice k e) ∧ e.isOpen = false ∧ e.tx.busy = false ∧
        e.result = some r ∧
        e.trace = d.trace ++ [.onClose d.binding.context r, .tClose, .returned (some 0#32)]

/-- R162 (the spec's own decision D26), R152: for the two pass-throughs and any handler: what it invokes runs inside, and the result is
the handler's status, on the device as the handler left it. That a handler may close and open its own device there is the model's choice,
notes/assumptions/15.md, and that a stepwise SEND only starts there, 13.md. -/
def Obligations.PassThroughsRunHandlerInside : Prop :=
  ∀ (s u : State) (k : Nat) (d e : Device) (x : Token) (a : HandlerAnswer) (rest : List HandlerAnswer) (f : FreeKey),
    s.devices[k]? = some d → d.isOpen = true → u.devices[k]? = some e →
      (Answers d.env.onWriteComplete d.fresh a rest f →
        runCalls none a.calls
          (s.setDevice k
            { d with
              trace := d.trace ++ [.onWriteComplete d.binding.context x a.status]
              env := { d.env with onWriteComplete := rest }
              fresh := f }) = .next u →
        exec (.writeComplete k x) s = .next (u.setDevice k { e with result := some a.status })) ∧
      (Answers d.env.onClose d.fresh a rest f →
        runCalls none a.calls
          (s.setDevice k
            { d with
              trace := d.trace ++ [.onClose d.binding.context a.status]
              env := { d.env with onClose := rest }
              fresh := f }) = .next u →
        exec (.transportClose k) s = .next (u.setDevice k { e with result := some a.status }))

/-- R54, R120: T_OPEN on a closed device passes port and baudrate to the transport and takes its answer; no register changes. (That
the result of the transaction alone is `OK` for a handle and `ERR` for a failure is the model's choice, notes/assumptions/9.md.) -/
def Obligations.TOpenAsksTransport : Prop :=
  ∀ (s : State) (k : Nat) (d : Device) (p b : Token) (answer : Option Token) (handles : List (Option Token)) (f : FreeKey),
    s.devices[k]? = some d → d.isOpen = false →
    Taken d.env.tOpen (Config.freeTOpen d.fresh) d.fresh answer handles f →
      exec (.tOpen k p b) s =
        .next (s.setDevice k
          { d with
            trace := d.trace ++ [.tOpen p b answer]
            env := { d.env with tOpen := handles }
            fresh := f
            result := some (if answer.isSome then 0#32 else 0xFFFFFFFF#32) })

/-- R54, for the T_CLOSE row requested by itself (the model's choice, notes/assumptions/9.md): T_CLOSE has no response and changes no
register. That the result field keeps what it held is 12.md. -/
def Obligations.TCloseTellsTransport : Prop :=
  ∀ (s : State) (k : Nat) (d : Device), s.devices[k]? = some d →
    exec (.tClose k) s = .next (s.setDevice k { d with trace := d.trace ++ [.tClose] })

/-- R127: the registry is the set of open devices: CLOSE removes its device and no other, OPEN adds its device exactly when it returns
`OK`, and an instruction that is neither, with handlers that invoke nothing but SEND, changes no membership. -/
def Obligations.RegistryMembership : Prop :=
  ∀ (s t : State) (k : Nat),
    (exec (.close k) s = .next t → k ∈ s.registry ∧ ∀ j, j ∈ t.registry ↔ j ∈ s.registry ∧ j ≠ k) ∧
    (∀ (add remove : Bool) (p b c : Token), exec (.openDevice k add remove p b c) s = .next t →
      k ∉ s.registry ∧ ∃ e, t.devices[k]? = some e ∧
        ∀ j, j ∈ t.registry ↔ j ∈ s.registry ∨ (j = k ∧ e.result = some 0#32)) ∧
    (∀ i, i ≠ .close k → (∀ add remove p b c, i ≠ .openDevice k add remove p b c) → instrDevice i = k →
      (∀ d ∈ s.devices, d.CallsSendOnly) → exec i s = .next t → t.registry = s.registry)

/-- R44, R164: devices are independent: an instruction for device `k`, whose handlers invoke operations on device `k` alone, changes no
other device and no waiting request. -/
def Obligations.OtherDevicesUntouched : Prop :=
  ∀ (i : Instr) (s t : State) (k : Nat) (d : Device),
    instrDevice i = k → s.devices[k]? = some d → d.CallsOnly k → exec i s = .next t → OnlyDevice k s t

/-- R39 (derived in the spec): the datapaths are independent: SEND changes no register of the receive datapath and reads none, not even
`fault`; DELIVER, DELIVER_FAIL and ON_READ, with handlers that invoke nothing, change no register of the sender. -/
def Obligations.DatapathsIndependent : Prop :=
  ∀ (s t : State) (k : Nat) (d e : Device), s.devices[k]? = some d → t.devices[k]? = some e →
    (∀ (form : SendForm) (type : Byte) (count : Count) (data : List Byte) (rx : Rx),
      exec (.send k form type count data) s = .next t →
        e.rx = d.rx ∧ exec (.send k form type count data) (s.setDevice k { d with rx := rx }) =
          .next (t.setDevice k { e with rx := rx })) ∧
    (∀ (i : Instr) (bs : List Byte), i = .deliver k bs ∨ i = .deliverFail k ∨ i = .onRead k → d.QuietReads →
      exec i s = .next t → e.tx = d.tx ∧ e.isOpen = d.isOpen ∧ e.binding = d.binding)
end

