-- ==== Sys2Proof/Laws/State.lean ====
section
/-! SUPPORT. One lemma per field per update of the state, so that no later proof unfolds a record update. -/

namespace Sys2Proof.Machine

variable (d : Device) (s : State)

/-! ## The key of the next free value -/

@[simp] theorem FreeKey.next_device (key : FreeKey) : key.next.device = key.device := rfl

@[simp] theorem FreeKey.next_count (key : FreeKey) : key.next.count = key.count + 1 := rfl

/-- A device never draws at a key again (notes/assumptions/4.md). -/
theorem FreeKey.next_ne (key : FreeKey) : key.next ≠ key := by
  intro h
  have := congrArg FreeKey.count h
  simp at this

/-! ## The list of devices -/

@[simp] theorem State.setDevice_inbox (k : Nat) : (s.setDevice k d).inbox = s.inbox := rfl

@[simp] theorem State.setDevice_length (k : Nat) : (s.setDevice k d).devices.length = s.devices.length := by
  simp [State.setDevice]

theorem State.setDevice_devices (k : Nat) : (s.setDevice k d).devices = s.devices.set k d := rfl

/-- Device `k` is what it was set to. -/
theorem State.setDevice_get {s : State} {k : Nat} {e : Device} (h : s.devices[k]? = some e) :
    (s.setDevice k d).devices[k]? = some d := by
  have := (List.getElem?_eq_some_iff.mp h).1
  simp [State.setDevice, this]

/-- The other devices are as they were. -/
theorem State.setDevice_get_other {j k : Nat} (h : j ≠ k) : (s.setDevice k d).devices[j]? = s.devices[j]? := by
  simp [State.setDevice, Ne.symm h]

/-- The second of two settings of one device stands. -/
@[simp] theorem State.setDevice_setDevice (k : Nat) (e : Device) :
    (s.setDevice k d).setDevice k e = s.setDevice k e := by
  simp [State.setDevice]

/-- Setting a device changes nothing but that device. -/
theorem State.setDevice_only (k : Nat) : OnlyDevice k s (s.setDevice k d) :=
  ⟨rfl, by simp, fun _ h => s.setDevice_get_other d h⟩

theorem State.setDevice_mem {s : State} {k : Nat} {d e : Device} (h : e ∈ (s.setDevice k d).devices) :
    e ∈ s.devices ∨ e = d := List.mem_or_eq_of_mem_set h

@[simp] theorem State.place_inbox (r : Request) : (s.place r).inbox = r :: s.inbox := rfl

@[simp] theorem State.place_devices (r : Request) : (s.place r).devices = s.devices := rfl

/-! ## The updates of a device -/

@[simp] theorem Device.ret_isOpen (r : Status) : (d.ret r).isOpen = d.isOpen := rfl
@[simp] theorem Device.ret_rx (r : Status) : (d.ret r).rx = d.rx := rfl
@[simp] theorem Device.ret_tx (r : Status) : (d.ret r).tx = d.tx := rfl
@[simp] theorem Device.ret_binding (r : Status) : (d.ret r).binding = d.binding := rfl
@[simp] theorem Device.ret_result (r : Status) : (d.ret r).result = some r := rfl
@[simp] theorem Device.ret_trace (r : Status) : (d.ret r).trace = d.trace := rfl
@[simp] theorem Device.ret_env (r : Status) : (d.ret r).env = d.env := rfl
@[simp] theorem Device.ret_fresh (r : Status) : (d.ret r).fresh = d.fresh := rfl

@[simp] theorem Device.noResult_isOpen : (d.noResult).isOpen = d.isOpen := rfl
@[simp] theorem Device.noResult_rx : (d.noResult).rx = d.rx := rfl
@[simp] theorem Device.noResult_tx : (d.noResult).tx = d.tx := rfl
@[simp] theorem Device.noResult_binding : (d.noResult).binding = d.binding := rfl
@[simp] theorem Device.noResult_result : (d.noResult).result = none := rfl
@[simp] theorem Device.noResult_trace : (d.noResult).trace = d.trace := rfl
@[simp] theorem Device.noResult_env : (d.noResult).env = d.env := rfl
@[simp] theorem Device.noResult_fresh : (d.noResult).fresh = d.fresh := rfl

@[simp] theorem Device.setAcc_isOpen (n : Nat) : (d.setAcc n).isOpen = d.isOpen := rfl
@[simp] theorem Device.setAcc_rx (n : Nat) : (d.setAcc n).rx = { d.rx with acc := BitVec.ofNat 9 n } := rfl
@[simp] theorem Device.setAcc_tx (n : Nat) : (d.setAcc n).tx = d.tx := rfl
@[simp] theorem Device.setAcc_binding (n : Nat) : (d.setAcc n).binding = d.binding := rfl
@[simp] theorem Device.setAcc_result (n : Nat) : (d.setAcc n).result = d.result := rfl
@[simp] theorem Device.setAcc_trace (n : Nat) : (d.setAcc n).trace = d.trace := rfl
@[simp] theorem Device.setAcc_env (n : Nat) : (d.setAcc n).env = d.env := rfl
@[simp] theorem Device.setAcc_fresh (n : Nat) : (d.setAcc n).fresh = d.fresh := rfl

@[simp] theorem Device.consume_isOpen (bs : List Byte) : (d.consume bs).isOpen = d.isOpen := rfl
@[simp] theorem Device.consume_rx (bs : List Byte) : (d.consume bs).rx = { d.rx with rxs := d.rx.rxs ++ bs } := rfl
@[simp] theorem Device.consume_tx (bs : List Byte) : (d.consume bs).tx = d.tx := rfl
@[simp] theorem Device.consume_binding (bs : List Byte) : (d.consume bs).binding = d.binding := rfl
@[simp] theorem Device.consume_result (bs : List Byte) : (d.consume bs).result = d.result := rfl
@[simp] theorem Device.consume_trace (bs : List Byte) : (d.consume bs).trace = d.trace := rfl
@[simp] theorem Device.consume_env (bs : List Byte) : (d.consume bs).env = d.env := rfl
@[simp] theorem Device.consume_fresh (bs : List Byte) : (d.consume bs).fresh = d.fresh := rfl

@[simp] theorem Device.append_isOpen (bs : List Byte) : (d.append bs).isOpen = d.isOpen := rfl
@[simp] theorem Device.append_rx (bs : List Byte) :
    (d.append bs).rx =
      { d.rx with rbuf := d.rx.rbuf.putRun d.rx.acc.toNat bs,
                  acc := BitVec.ofNat 9 (d.rx.acc.toNat + bs.length) } := rfl
@[simp] theorem Device.append_tx (bs : List Byte) : (d.append bs).tx = d.tx := rfl
@[simp] theorem Device.append_binding (bs : List Byte) : (d.append bs).binding = d.binding := rfl
@[simp] theorem Device.append_result (bs : List Byte) : (d.append bs).result = d.result := rfl
@[simp] theorem Device.append_trace (bs : List Byte) : (d.append bs).trace = d.trace := rfl
@[simp] theorem Device.append_env (bs : List Byte) : (d.append bs).env = d.env := rfl
@[simp] theorem Device.append_fresh (bs : List Byte) : (d.append bs).fresh = d.fresh := rfl

@[simp] theorem Device.raise_isOpen (c : Cause) : (d.raise c).isOpen = d.isOpen := rfl
@[simp] theorem Device.raise_rx (c : Cause) : (d.raise c).rx = { d.rx with fault := c } := rfl
@[simp] theorem Device.raise_tx (c : Cause) : (d.raise c).tx = d.tx := rfl
@[simp] theorem Device.raise_binding (c : Cause) : (d.raise c).binding = d.binding := rfl
@[simp] theorem Device.raise_result (c : Cause) : (d.raise c).result = some Config.err := rfl
@[simp] theorem Device.raise_trace (c : Cause) : (d.raise c).trace = d.trace := rfl
@[simp] theorem Device.raise_env (c : Cause) : (d.raise c).env = d.env := rfl
@[simp] theorem Device.raise_fresh (c : Cause) : (d.raise c).fresh = d.fresh := rfl

@[simp] theorem Device.endSend_isOpen : (d.endSend).isOpen = d.isOpen := rfl
@[simp] theorem Device.endSend_rx : (d.endSend).rx = d.rx := rfl
@[simp] theorem Device.endSend_tx : (d.endSend).tx = { d.tx with busy := false, sdata := [] } := rfl
@[simp] theorem Device.endSend_binding : (d.endSend).binding = d.binding := rfl
@[simp] theorem Device.endSend_result : (d.endSend).result = d.result := rfl
@[simp] theorem Device.endSend_trace : (d.endSend).trace = d.trace := rfl
@[simp] theorem Device.endSend_env : (d.endSend).env = d.env := rfl
@[simp] theorem Device.endSend_fresh : (d.endSend).fresh = d.fresh := rfl

@[simp] theorem Device.startSend_isOpen (type : Byte) (count : Count) (data : List Byte) : (d.startSend type count data).isOpen = d.isOpen := rfl
@[simp] theorem Device.startSend_rx (type : Byte) (count : Count) (data : List Byte) : (d.startSend type count data).rx = d.rx := rfl
@[simp] theorem Device.startSend_tx (type : Byte) (count : Count) (data : List Byte) :
    (d.startSend type count data).tx =
      { d.tx with busy := true, type := type, off := 0#16, rem := count, sdata := data.take count.toNat } := rfl
@[simp] theorem Device.startSend_binding (type : Byte) (count : Count) (data : List Byte) : (d.startSend type count data).binding = d.binding := rfl
@[simp] theorem Device.startSend_result (type : Byte) (count : Count) (data : List Byte) : (d.startSend type count data).result = d.result := rfl
@[simp] theorem Device.startSend_trace (type : Byte) (count : Count) (data : List Byte) : (d.startSend type count data).trace = d.trace := rfl
@[simp] theorem Device.startSend_env (type : Byte) (count : Count) (data : List Byte) : (d.startSend type count data).env = d.env := rfl
@[simp] theorem Device.startSend_fresh (type : Byte) (count : Count) (data : List Byte) : (d.startSend type count data).fresh = d.fresh := rfl

@[simp] theorem Device.advanceSend_isOpen (len : Nat) : (d.advanceSend len).isOpen = d.isOpen := rfl
@[simp] theorem Device.advanceSend_rx (len : Nat) : (d.advanceSend len).rx = d.rx := rfl
@[simp] theorem Device.advanceSend_tx (len : Nat) :
    (d.advanceSend len).tx =
      { d.tx with off := d.tx.off + BitVec.ofNat 16 len, rem := d.tx.rem - BitVec.ofNat 16 len } := rfl
@[simp] theorem Device.advanceSend_binding (len : Nat) : (d.advanceSend len).binding = d.binding := rfl
@[simp] theorem Device.advanceSend_result (len : Nat) : (d.advanceSend len).result = d.result := rfl
@[simp] theorem Device.advanceSend_trace (len : Nat) : (d.advanceSend len).trace = d.trace := rfl
@[simp] theorem Device.advanceSend_env (len : Nat) : (d.advanceSend len).env = d.env := rfl
@[simp] theorem Device.advanceSend_fresh (len : Nat) : (d.advanceSend len).fresh = d.fresh := rfl

@[simp] theorem Device.transmit_isOpen (bs : List Byte) : (d.transmit bs).isOpen = d.isOpen := rfl
@[simp] theorem Device.transmit_rx (bs : List Byte) : (d.transmit bs).rx = d.rx := rfl
@[simp] theorem Device.transmit_tx (bs : List Byte) : (d.transmit bs).tx = { d.tx with txs := d.tx.txs ++ bs } := rfl
@[simp] theorem Device.transmit_binding (bs : List Byte) : (d.transmit bs).binding = d.binding := rfl
@[simp] theorem Device.transmit_result (bs : List Byte) : (d.transmit bs).result = d.result := rfl
@[simp] theorem Device.transmit_trace (bs : List Byte) : (d.transmit bs).trace = d.trace := rfl
@[simp] theorem Device.transmit_env (bs : List Byte) : (d.transmit bs).env = d.env := rfl
@[simp] theorem Device.transmit_fresh (bs : List Byte) : (d.transmit bs).fresh = d.fresh := rfl

@[simp] theorem Device.record_isOpen (e : Event) : (d.record e).isOpen = d.isOpen := rfl
@[simp] theorem Device.record_rx (e : Event) : (d.record e).rx = d.rx := rfl
@[simp] theorem Device.record_tx (e : Event) : (d.record e).tx = d.tx := rfl
@[simp] theorem Device.record_binding (e : Event) : (d.record e).binding = d.binding := rfl
@[simp] theorem Device.record_result (e : Event) : (d.record e).result = d.result := rfl
@[simp] theorem Device.record_trace (e : Event) : (d.record e).trace = d.trace ++ [e] := rfl
@[simp] theorem Device.record_env (e : Event) : (d.record e).env = d.env := rfl
@[simp] theorem Device.record_fresh (e : Event) : (d.record e).fresh = d.fresh := rfl

@[simp] theorem Device.bump_isOpen : (d.bump).isOpen = d.isOpen := rfl
@[simp] theorem Device.bump_rx : (d.bump).rx = d.rx := rfl
@[simp] theorem Device.bump_tx : (d.bump).tx = d.tx := rfl
@[simp] theorem Device.bump_binding : (d.bump).binding = d.binding := rfl
@[simp] theorem Device.bump_result : (d.bump).result = d.result := rfl
@[simp] theorem Device.bump_trace : (d.bump).trace = d.trace := rfl
@[simp] theorem Device.bump_env : (d.bump).env = d.env := rfl
@[simp] theorem Device.bump_fresh : (d.bump).fresh = d.fresh.next := rfl

@[simp] theorem Device.callSetReadSize_isOpen (n : Nat) : (d.callSetReadSize n).isOpen = d.isOpen := rfl
@[simp] theorem Device.callSetReadSize_rx (n : Nat) : (d.callSetReadSize n).rx = d.rx := rfl
@[simp] theorem Device.callSetReadSize_tx (n : Nat) : (d.callSetReadSize n).tx = d.tx := rfl
@[simp] theorem Device.callSetReadSize_binding (n : Nat) : (d.callSetReadSize n).binding = d.binding := rfl
@[simp] theorem Device.callSetReadSize_result (n : Nat) : (d.callSetReadSize n).result = d.result := rfl
@[simp] theorem Device.callSetReadSize_trace (n : Nat) :
    (d.callSetReadSize n).trace =
      d.trace ++ [.setReadSize (BitVec.ofNat 8 n)] := rfl
@[simp] theorem Device.callSetReadSize_env (n : Nat) : (d.callSetReadSize n).env = d.env := rfl
@[simp] theorem Device.callSetReadSize_fresh (n : Nat) : (d.callSetReadSize n).fresh = d.fresh := rfl

@[simp] theorem Device.callTClose_isOpen : (d.callTClose).isOpen = d.isOpen := rfl
@[simp] theorem Device.callTClose_rx : (d.callTClose).rx = d.rx := rfl
@[simp] theorem Device.callTClose_tx : (d.callTClose).tx = d.tx := rfl
@[simp] theorem Device.callTClose_binding : (d.callTClose).binding = d.binding := rfl
@[simp] theorem Device.callTClose_result : (d.callTClose).result = d.result := rfl
@[simp] theorem Device.callTClose_trace : (d.callTClose).trace = d.trace ++ [.tClose] := rfl
@[simp] theorem Device.callTClose_env : (d.callTClose).env = d.env := rfl
@[simp] theorem Device.callTClose_fresh : (d.callTClose).fresh = d.fresh := rfl

@[simp] theorem Device.initialise_isOpen (h p b c : Token) : (d.initialise h p b c).isOpen = true := rfl
@[simp] theorem Device.initialise_rx (h p b c : Token) :
    (d.initialise h p b c).rx =
      { acc := 0#9, fault := .none, rbuf := [], rxs := [] } := rfl
@[simp] theorem Device.initialise_tx (h p b c : Token) :
    (d.initialise h p b c).tx =
      { busy := false, type := Config.freeTxType d.fresh, off := Config.freeTxOff d.fresh,
                  rem := Config.freeTxRem d.fresh, sdata := [], txs := [] } := rfl
@[simp] theorem Device.initialise_binding (h p b c : Token) :
    (d.initialise h p b c).binding =
      { handle := h, port := p, baudrate := b, context := c } := rfl
@[simp] theorem Device.initialise_result (h p b c : Token) : (d.initialise h p b c).result = d.result := rfl
@[simp] theorem Device.initialise_trace (h p b c : Token) : (d.initialise h p b c).trace = d.trace := rfl
@[simp] theorem Device.initialise_env (h p b c : Token) : (d.initialise h p b c).env = d.env := rfl
@[simp] theorem Device.initialise_fresh (h p b c : Token) : (d.initialise h p b c).fresh = d.fresh.next := rfl

@[simp] theorem Device.release_isOpen : (d.release).isOpen = false := rfl
@[simp] theorem Device.release_rx :
    (d.release).rx =
      { acc := BitVec.ofNat 9 (Config.freeAcc d.fresh).val, fault := Config.freeCause d.fresh,
                  rbuf := Memory.tabulate (Config.freeBufferByte d.fresh) Config.cap, rxs := d.rx.rxs } := rfl
@[simp] theorem Device.release_tx :
    (d.release).tx =
      { busy := false, type := Config.freeTxType d.fresh, off := Config.freeTxOff d.fresh,
                  rem := Config.freeTxRem d.fresh, sdata := [], txs := d.tx.txs } := rfl
@[simp] theorem Device.release_binding :
    (d.release).binding =
      { handle := Config.freeToken d.fresh 0, port := Config.freeToken d.fresh 1,
                  baudrate := Config.freeToken d.fresh 2, context := Config.freeToken d.fresh 3 } := rfl
@[simp] theorem Device.release_result : (d.release).result = d.result := rfl
@[simp] theorem Device.release_trace : (d.release).trace = d.trace := rfl
@[simp] theorem Device.release_env : (d.release).env = d.env := rfl
@[simp] theorem Device.release_fresh : (d.release).fresh = d.fresh.next := rfl

/-! ## Taking an answer touches `env` and the counter alone -/

@[simp] theorem Device.takeOnRead_isOpen : d.takeOnRead.2.isOpen = d.isOpen := by
  unfold Device.takeOnRead; split <;> rfl
@[simp] theorem Device.takeOnRead_rx : d.takeOnRead.2.rx = d.rx := by
  unfold Device.takeOnRead; split <;> rfl
@[simp] theorem Device.takeOnRead_tx : d.takeOnRead.2.tx = d.tx := by
  unfold Device.takeOnRead; split <;> rfl
@[simp] theorem Device.takeOnRead_binding : d.takeOnRead.2.binding = d.binding := by
  unfold Device.takeOnRead; split <;> rfl
@[simp] theorem Device.takeOnRead_result : d.takeOnRead.2.result = d.result := by
  unfold Device.takeOnRead; split <;> rfl
@[simp] theorem Device.takeOnRead_trace : d.takeOnRead.2.trace = d.trace := by
  unfold Device.takeOnRead; split <;> rfl

@[simp] theorem Device.takeOnWriteComplete_isOpen : d.takeOnWriteComplete.2.isOpen = d.isOpen := by
  unfold Device.takeOnWriteComplete; split <;> rfl
@[simp] theorem Device.takeOnWriteComplete_rx : d.takeOnWriteComplete.2.rx = d.rx := by
  unfold Device.takeOnWriteComplete; split <;> rfl
@[simp] theorem Device.takeOnWriteComplete_tx : d.takeOnWriteComplete.2.tx = d.tx := by
  unfold Device.takeOnWriteComplete; split <;> rfl
@[simp] theorem Device.takeOnWriteComplete_binding : d.takeOnWriteComplete.2.binding = d.binding := by
  unfold Device.takeOnWriteComplete; split <;> rfl
@[simp] theorem Device.takeOnWriteComplete_result : d.takeOnWriteComplete.2.result = d.result := by
  unfold Device.takeOnWriteComplete; split <;> rfl
@[simp] theorem Device.takeOnWriteComplete_trace : d.takeOnWriteComplete.2.trace = d.trace := by
  unfold Device.takeOnWriteComplete; split <;> rfl

@[simp] theorem Device.takeOnClose_isOpen : d.takeOnClose.2.isOpen = d.isOpen := by
  unfold Device.takeOnClose; split <;> rfl
@[simp] theorem Device.takeOnClose_rx : d.takeOnClose.2.rx = d.rx := by
  unfold Device.takeOnClose; split <;> rfl
@[simp] theorem Device.takeOnClose_tx : d.takeOnClose.2.tx = d.tx := by
  unfold Device.takeOnClose; split <;> rfl
@[simp] theorem Device.takeOnClose_binding : d.takeOnClose.2.binding = d.binding := by
  unfold Device.takeOnClose; split <;> rfl
@[simp] theorem Device.takeOnClose_result : d.takeOnClose.2.result = d.result := by
  unfold Device.takeOnClose; split <;> rfl
@[simp] theorem Device.takeOnClose_trace : d.takeOnClose.2.trace = d.trace := by
  unfold Device.takeOnClose; split <;> rfl

@[simp] theorem Device.takeTxWrite_isOpen : d.takeTxWrite.2.isOpen = d.isOpen := by
  unfold Device.takeTxWrite; split <;> rfl
@[simp] theorem Device.takeTxWrite_rx : d.takeTxWrite.2.rx = d.rx := by
  unfold Device.takeTxWrite; split <;> rfl
@[simp] theorem Device.takeTxWrite_tx : d.takeTxWrite.2.tx = d.tx := by
  unfold Device.takeTxWrite; split <;> rfl
@[simp] theorem Device.takeTxWrite_binding : d.takeTxWrite.2.binding = d.binding := by
  unfold Device.takeTxWrite; split <;> rfl
@[simp] theorem Device.takeTxWrite_result : d.takeTxWrite.2.result = d.result := by
  unfold Device.takeTxWrite; split <;> rfl
@[simp] theorem Device.takeTxWrite_trace : d.takeTxWrite.2.trace = d.trace := by
  unfold Device.takeTxWrite; split <;> rfl

@[simp] theorem Device.takeTOpen_isOpen : d.takeTOpen.2.isOpen = d.isOpen := by
  unfold Device.takeTOpen; split <;> rfl
@[simp] theorem Device.takeTOpen_rx : d.takeTOpen.2.rx = d.rx := by
  unfold Device.takeTOpen; split <;> rfl
@[simp] theorem Device.takeTOpen_tx : d.takeTOpen.2.tx = d.tx := by
  unfold Device.takeTOpen; split <;> rfl
@[simp] theorem Device.takeTOpen_binding : d.takeTOpen.2.binding = d.binding := by
  unfold Device.takeTOpen; split <;> rfl
@[simp] theorem Device.takeTOpen_result : d.takeTOpen.2.result = d.result := by
  unfold Device.takeTOpen; split <;> rfl
@[simp] theorem Device.takeTOpen_trace : d.takeTOpen.2.trace = d.trace := by
  unfold Device.takeTOpen; split <;> rfl

@[simp] theorem Device.takeAlloc_isOpen : d.takeAlloc.2.isOpen = d.isOpen := by
  unfold Device.takeAlloc; split <;> rfl
@[simp] theorem Device.takeAlloc_rx : d.takeAlloc.2.rx = d.rx := by
  unfold Device.takeAlloc; split <;> rfl
@[simp] theorem Device.takeAlloc_tx : d.takeAlloc.2.tx = d.tx := by
  unfold Device.takeAlloc; split <;> rfl
@[simp] theorem Device.takeAlloc_binding : d.takeAlloc.2.binding = d.binding := by
  unfold Device.takeAlloc; split <;> rfl
@[simp] theorem Device.takeAlloc_result : d.takeAlloc.2.result = d.result := by
  unfold Device.takeAlloc; split <;> rfl
@[simp] theorem Device.takeAlloc_trace : d.takeAlloc.2.trace = d.trace := by
  unfold Device.takeAlloc; split <;> rfl

@[simp] theorem Device.takeInstall_isOpen : d.takeInstall.2.isOpen = d.isOpen := by
  unfold Device.takeInstall; split <;> rfl
@[simp] theorem Device.takeInstall_rx : d.takeInstall.2.rx = d.rx := by
  unfold Device.takeInstall; split <;> rfl
@[simp] theorem Device.takeInstall_tx : d.takeInstall.2.tx = d.tx := by
  unfold Device.takeInstall; split <;> rfl
@[simp] theorem Device.takeInstall_binding : d.takeInstall.2.binding = d.binding := by
  unfold Device.takeInstall; split <;> rfl
@[simp] theorem Device.takeInstall_result : d.takeInstall.2.result = d.result := by
  unfold Device.takeInstall; split <;> rfl
@[simp] theorem Device.takeInstall_trace : d.takeInstall.2.trace = d.trace := by
  unfold Device.takeInstall; split <;> rfl

/-! ## TX_WRITE and T_OPEN -/

@[simp] theorem Device.callTxWrite_isOpen (bs : List Byte) : (d.callTxWrite bs).2.isOpen = d.isOpen := by
  simp [Device.callTxWrite]
@[simp] theorem Device.callTxWrite_rx (bs : List Byte) : (d.callTxWrite bs).2.rx = d.rx := by
  simp [Device.callTxWrite]
@[simp] theorem Device.callTxWrite_binding (bs : List Byte) : (d.callTxWrite bs).2.binding = d.binding := by
  simp [Device.callTxWrite]
@[simp] theorem Device.callTxWrite_result (bs : List Byte) : (d.callTxWrite bs).2.result = d.result := by
  simp [Device.callTxWrite]

@[simp] theorem Device.callTxWrite_trace (bs : List Byte) :
    (d.callTxWrite bs).2.trace = d.trace ++ [.txWrite bs (d.callTxWrite bs).1] := by
  simp [Device.callTxWrite]

@[simp] theorem Device.callTxWrite_tx (bs : List Byte) :
    (d.callTxWrite bs).2.tx = { d.tx with txs := d.tx.txs ++ wireBytes bs d.takeTxWrite.1 } := by
  simp [Device.callTxWrite]

@[simp] theorem Device.callTOpen_isOpen (p b : Token) : (d.callTOpen p b).2.isOpen = d.isOpen := by
  simp [Device.callTOpen]
@[simp] theorem Device.callTOpen_rx (p b : Token) : (d.callTOpen p b).2.rx = d.rx := by
  simp [Device.callTOpen]
@[simp] theorem Device.callTOpen_tx (p b : Token) : (d.callTOpen p b).2.tx = d.tx := by
  simp [Device.callTOpen]
@[simp] theorem Device.callTOpen_binding (p b : Token) : (d.callTOpen p b).2.binding = d.binding := by
  simp [Device.callTOpen]
@[simp] theorem Device.callTOpen_result (p b : Token) : (d.callTOpen p b).2.result = d.result := by
  simp [Device.callTOpen]

@[simp] theorem Device.callTOpen_trace (p b : Token) :
    (d.callTOpen p b).2.trace = d.trace ++ [.tOpen p b (d.callTOpen p b).1] := by
  simp [Device.callTOpen]

end Sys2Proof.Machine
end

