-- ==== Sys2Proof/Laws/Memory.lean ====
section
/-! SUPPORT. RBUF: a read after a write, and every operation keeps the canonical form. -/

namespace Sys2Proof.Machine

@[simp] theorem Memory.get_nil (a : Nat) : Memory.get [] a = 0#8 := rfl

/-- An offset below every listed one holds 0. -/
theorem Memory.get_below {m : Memory} {a : Nat} (h : ∀ c ∈ m, a < c.1) : m.get a = 0#8 := by
  induction m with
  | nil => rfl
  | cons c m ih =>
    have hc := h c (by simp)
    have : a ≠ c.1 := by omega
    simp only [Memory.get, if_neg this]
    exact ih fun x hx => h x (by simp [hx])

/-- Every cell of a buffer after a write is a cell from before or the one written, which is not 0. -/
theorem Memory.mem_put {m : Memory} {a : Nat} {v : Byte} {c : Host.Cell} (h : c ∈ m.put a v) :
    c ∈ m ∨ (c = (a, v) ∧ v ≠ 0#8) := by
  induction m with
  | nil =>
    unfold Memory.put at h
    split at h <;> simp_all
  | cons x m ih =>
    unfold Memory.put at h
    split at h
    · split at h
      · exact .inl h
      · rcases List.mem_cons.mp h with h | h
        · exact .inr ⟨h, by assumption⟩
        · exact .inl h
    · split at h
      · split at h
        · exact .inl (by simp [h])
        · rcases List.mem_cons.mp h with h | h
          · exact .inr ⟨h, by assumption⟩
          · exact .inl (by simp [h])
      · rcases List.mem_cons.mp h with h | h
        · exact .inl (by simp [h])
        · rcases ih h with h | h
          · exact .inl (by simp [h])
          · exact .inr h

/-- A write keeps the canonical form. -/
theorem Memory.put_wf {m : Memory} {a : Nat} {v : Byte} (h : m.wf) (ha : a < 256) : (m.put a v).wf := by
  refine ⟨?_, fun c hc => ?_⟩
  · obtain ⟨hp, -⟩ := h
    induction m with
    | nil => unfold Memory.put; split <;> simp
    | cons x m ih =>
      rw [List.pairwise_cons] at hp
      unfold Memory.put
      split
      · split
        · exact List.pairwise_cons.mpr hp
        · refine List.pairwise_cons.mpr ⟨fun y hy => ?_, List.pairwise_cons.mpr hp⟩
          rcases List.mem_cons.mp hy with rfl | hy
          · assumption
          · have := hp.1 y hy; simp only at *; omega
      · split
        · split
          · exact hp.2
          · refine List.pairwise_cons.mpr ⟨fun y hy => ?_, hp.2⟩
            have := hp.1 y hy; simp only at *; omega
        · refine List.pairwise_cons.mpr ⟨fun y hy => ?_, ih hp.2⟩
          rcases Memory.mem_put hy with hy | ⟨rfl, -⟩
          · exact hp.1 y hy
          · simp only; omega
  · rcases Memory.mem_put hc with hc | ⟨rfl, hv⟩
    · exact h.2 c hc
    · exact ⟨by simpa using ha, hv⟩

/-- A read at the offset written gives the value written. -/
theorem Memory.get_put_same {m : Memory} {a : Nat} {v : Byte} (h : m.Pairwise (fun x y => x.1 < y.1)) :
    (m.put a v).get a = v := by
  induction m with
  | nil => unfold Memory.put; split <;> simp_all [Memory.get]
  | cons x m ih =>
    rw [List.pairwise_cons] at h
    unfold Memory.put
    split
    · split
      · rename_i hlt hv
        have : a ≠ x.1 := by omega
        simp only [Memory.get, if_neg this, hv]
        exact Memory.get_below fun c hc => by have := h.1 c hc; omega
      · simp [Memory.get]
    · split
      · split
        · rename_i heq hv
          rw [hv]
          exact Memory.get_below fun c hc => by have := h.1 c hc; omega
        · simp [Memory.get]
      · rename_i hne
        simp only [Memory.get, if_neg hne]
        exact ih h.2

/-- A read at another offset is as before. -/
theorem Memory.get_put_other {m : Memory} {a b : Nat} {v : Byte} (h : b ≠ a) : (m.put a v).get b = m.get b := by
  induction m with
  | nil => unfold Memory.put; split <;> simp [Memory.get, h]
  | cons x m ih =>
    unfold Memory.put
    split
    · split <;> simp [Memory.get, h]
    · split
      · rename_i heq
        split <;> simp [Memory.get, ← heq, h]
      · simp only [Memory.get]; split
        · rfl
        · exact ih

/-- A run of writes keeps the canonical form. -/
theorem Memory.putRun_wf {bs : List Byte} : ∀ {m : Memory} {a : Nat}, m.wf → a + bs.length ≤ 256 → (m.putRun a bs).wf := by
  induction bs with
  | nil => intro m a h _; exact h
  | cons v bs ih =>
    intro m a h hl
    simp only [List.length_cons] at hl
    exact ih (Memory.put_wf h (by omega)) (by omega)

/-- An offset outside the run reads as before. -/
theorem Memory.get_putRun_other {bs : List Byte} :
    ∀ {m : Memory} {a b : Nat}, (b < a ∨ a + bs.length ≤ b) → (m.putRun a bs).get b = m.get b := by
  induction bs with
  | nil => intros; rfl
  | cons v bs ih =>
    intro m a b h
    simp only [List.length_cons] at h
    rw [Memory.putRun, ih (by omega), Memory.get_put_other (by omega)]

/-- An offset inside the run reads the byte written there. -/
theorem Memory.get_putRun_inside {bs : List Byte} :
    ∀ {m : Memory} {a i : Nat} (hi : i < bs.length), m.wf → a + bs.length ≤ 256 →
      (m.putRun a bs).get (a + i) = bs[i] := by
  induction bs with
  | nil => intro m a i hi; simp at hi
  | cons v bs ih =>
    intro m a i hi h hl
    simp only [List.length_cons] at hl hi
    rw [Memory.putRun]
    cases i with
    | zero =>
      rw [Memory.get_putRun_other (by omega)]
      exact Memory.get_put_same h.1
    | succ i =>
      have := ih (i := i) (a := a + 1) (by omega) (Memory.put_wf (a := a) (v := v) h (by omega)) (by omega)
      rw [show a + (i + 1) = a + 1 + i by omega, this]
      simp

@[simp] theorem Memory.getRun_length (m : Memory) (a n : Nat) : (m.getRun a n).length = n := by
  simp [Memory.getRun]

/-- A buffer given by a function of the offset is in the canonical form. -/
theorem Memory.tabulate_wf (f : Nat → Byte) : ∀ n, n ≤ 256 → (Memory.tabulate f n).wf := by
  intro n
  induction n with
  | zero => intro _; simp [Memory.tabulate, Memory.wf]
  | succ n ih => intro h; exact Memory.put_wf (ih (by omega)) (by omega)

/-- The state's memory at reset has the canonical form. -/
theorem reset_memory_wf : ∀ d ∈ State.reset.devices, d.rx.rbuf.wf := by
  intro d hd
  obtain ⟨k, -, rfl⟩ := List.mem_map.mp hd
  simp [Device.powerOn, Memory.wf]

end Sys2Proof.Machine
end

