-- ==== Sys2Proof/Laws/Ops.lean ====
section
/-! SUPPORT. For each shared operation, once, everything it can do: if it answers a next state, then these facts hold; and, where
its conditions hold, what it answers. -/

namespace Sys2Proof.Machine

/-! ## Sequencing and devices -/

@[simp] theorem andThen_next (s : State) (f : State → Result) : andThen (.next s) f = f s := rfl

/-- A sequence answers a next state if and only if both parts do. -/
theorem andThen_eq_next {r : Result} {f : State → Result} {t : State} :
    andThen r f = .next t ↔ ∃ s, r = .next s ∧ f s = .next t := by
  cases r <;> simp [andThen]

theorem withDevice_some {k : Nat} {s : State} {d : Device} (h : s.devices[k]? = some d) (f : Device → Result) :
    withDevice k s f = f d := by
  simp [withDevice, h]

theorem withDevice_none {k : Nat} {s : State} (h : s.devices[k]? = none) (f : Device → Result) :
    withDevice k s f = .refused .noSuchDevice := by
  simp [withDevice, h]

theorem withDevice_eq_next {k : Nat} {s t : State} {f : Device → Result} (h : withDevice k s f = .next t) :
    ∃ d, s.devices[k]? = some d ∧ f d = .next t := by
  unfold withDevice at h
  split at h
  · exact ⟨_, by assumption, h⟩
  · cases h

theorem withOpen_open {k : Nat} {s : State} {d : Device} (h : s.devices[k]? = some d) (ho : d.isOpen = true)
    (f : Device → Result) : withOpen k s f = f d := by
  simp [withOpen, withDevice_some h, ho]

theorem withOpen_closed {k : Nat} {s : State} {d : Device} (h : s.devices[k]? = some d) (ho : d.isOpen = false)
    (f : Device → Result) : withOpen k s f = .refused .deviceClosed := by
  simp [withOpen, withDevice_some h, ho]

theorem withOpen_eq_next {k : Nat} {s t : State} {f : Device → Result} (h : withOpen k s f = .next t) :
    ∃ d, s.devices[k]? = some d ∧ d.isOpen = true ∧ f d = .next t := by
  obtain ⟨d, hd, h⟩ := withDevice_eq_next h
  split at h
  · exact ⟨d, hd, by assumption, h⟩
  · cases h

theorem withClosed_closed {k : Nat} {s : State} {d : Device} (h : s.devices[k]? = some d) (ho : d.isOpen = false)
    (f : Device → Result) : withClosed k s f = f d := by
  simp [withClosed, withDevice_some h, ho]

theorem withClosed_open {k : Nat} {s : State} {d : Device} (h : s.devices[k]? = some d) (ho : d.isOpen = true)
    (f : Device → Result) : withClosed k s f = .refused .deviceOpen := by
  simp [withClosed, withDevice_some h, ho]

theorem withClosed_eq_next {k : Nat} {s t : State} {f : Device → Result} (h : withClosed k s f = .next t) :
    ∃ d, s.devices[k]? = some d ∧ d.isOpen = false ∧ f d = .next t := by
  obtain ⟨d, hd, h⟩ := withDevice_eq_next h
  split at h
  · cases h
  · rename_i ho
    exact ⟨d, hd, by simpa using ho, h⟩

/-! ## The caller's operations -/

/-- What an operation of the caller does to its device, where it runs. -/
def callEffect : CallerCall → Device → Device
  | .openDevice _ add remove port baudrate context, d => d.openWith add remove port baudrate context
  | .close _, d => d.closed
  | .send _ form type count data, d => d.send form type count data

/-- When an operation of the caller runs: OPEN on a closed device, CLOSE on an open one, SEND on an open one with no SEND in
progress and with its data (R112, R113, R128). -/
def callRuns : CallerCall → Device → Prop
  | .openDevice _ _ _ _ _ _, d => d.isOpen = false
  | .close _, d => d.isOpen = true
  | .send _ _ _ count data, d => d.isOpen = true ∧ d.tx.busy = false ∧ count.toNat ≤ data.length

theorem opSend_eq_next {k : Nat} {form : SendForm} {type : Byte} {count : Count} {data : List Byte} {s t : State}
    (h : opSend k form type count data s = .next t) :
    ∃ d, s.devices[k]? = some d ∧ d.isOpen = true ∧ d.tx.busy = false ∧ count.toNat ≤ data.length ∧
      t = s.setDevice k (d.send form type count data) := by
  obtain ⟨d, hd, ho, h⟩ := withOpen_eq_next h
  split at h
  · cases h
  · split at h
    · cases h
    · cases h
      exact ⟨d, hd, ho, by simp_all, by omega, rfl⟩

theorem opSend_runs {k : Nat} {d : Device} {s : State} {form : SendForm} {type : Byte} {count : Count} {data : List Byte}
    (hd : s.devices[k]? = some d) (ho : d.isOpen = true) (hb : d.tx.busy = false) (hc : count.toNat ≤ data.length) :
    opSend k form type count data s = .next (s.setDevice k (d.send form type count data)) := by
  simp [opSend, withOpen_open hd ho, hb, show ¬ data.length < count.toNat by omega]

theorem opOpen_eq_next {k : Nat} {add remove : Bool} {p b c : Token} {s t : State}
    (h : opOpen k add remove p b c s = .next t) :
    ∃ d, s.devices[k]? = some d ∧ d.isOpen = false ∧ t = s.setDevice k (d.openWith add remove p b c) := by
  obtain ⟨d, hd, ho, h⟩ := withClosed_eq_next h
  cases h
  exact ⟨d, hd, ho, rfl⟩

theorem opOpen_runs {k : Nat} {d : Device} {s : State} (hd : s.devices[k]? = some d) (ho : d.isOpen = false)
    (add remove : Bool) (p b c : Token) :
    opOpen k add remove p b c s = .next (s.setDevice k (d.openWith add remove p b c)) := by
  simp [opOpen, withClosed_closed hd ho]

theorem opClose_eq_next {k : Nat} {s t : State} (h : opClose k s = .next t) :
    ∃ d, s.devices[k]? = some d ∧ d.isOpen = true ∧ t = s.setDevice k d.closed := by
  obtain ⟨d, hd, ho, h⟩ := withOpen_eq_next h
  cases h
  exact ⟨d, hd, ho, rfl⟩

theorem opClose_runs {k : Nat} {d : Device} {s : State} (hd : s.devices[k]? = some d) (ho : d.isOpen = true) :
    opClose k s = .next (s.setDevice k d.closed) := by
  simp [opClose, withOpen_open hd ho]

/-- An operation of the caller that answers a next state has run on its device, and on no other. -/
theorem callOperation_eq_next {c : CallerCall} {s t : State} (h : callOperation c s = .next t) :
    ∃ d, s.devices[callDevice c]? = some d ∧ callRuns c d ∧ t = s.setDevice (callDevice c) (callEffect c d) := by
  cases c with
  | openDevice dev add remove p b x =>
    obtain ⟨d, hd, ho, rfl⟩ := opOpen_eq_next h
    exact ⟨d, hd, ho, rfl⟩
  | close dev =>
    obtain ⟨d, hd, ho, rfl⟩ := opClose_eq_next h
    exact ⟨d, hd, ho, rfl⟩
  | send dev form type count data =>
    obtain ⟨d, hd, ho, hb, hc, rfl⟩ := opSend_eq_next h
    exact ⟨d, hd, ⟨ho, hb, hc⟩, rfl⟩

/-- One operation invoked by a handler: it ran, its result went back to the handler, and inside ON_READ it did not close the
device that reads. -/
theorem runCall_eq_next {reading : Option Nat} {c : CallerCall} {s t : State} (h : runCall reading c s = .next t) :
    ∃ d, s.devices[callDevice c]? = some d ∧ callRuns c d ∧
      (c = .close (callDevice c) → reading ≠ some (callDevice c)) ∧
      t = s.setDevice (callDevice c) ((callEffect c d).record (.returned (callEffect c d).result)) := by
  unfold runCall at h
  split at h
  · cases h
  · rename_i hn
    obtain ⟨u, hu, h⟩ := andThen_eq_next.mp h
    obtain ⟨d, hd, hr, rfl⟩ := callOperation_eq_next hu
    obtain ⟨e, he, h⟩ := withDevice_eq_next h
    rw [State.setDevice_get _ hd] at he
    cases he
    cases h
    refine ⟨d, hd, hr, fun hc hk => hn ?_, by simp⟩
    simp [← hc, hk]

/-- What every operation of a handler keeps, the handler keeps. -/
theorem runCalls_keeps {P : State → Prop} {reading : Option Nat} {cs : List CallerCall} {s t : State}
    (hP : ∀ c ∈ cs, ∀ u v, P u → runCall reading c u = .next v → P v) (hs : P s) (h : runCalls reading cs s = .next t) :
    P t := by
  induction cs generalizing s with
  | nil => cases h; exact hs
  | cons c cs ih =>
    obtain ⟨u, hu, h⟩ := andThen_eq_next.mp h
    exact ih (fun c' hc' => hP c' (by simp [hc'])) (hP c (by simp) s u hs hu) h

/-- A handler that answers a next state: its operations ran, and the operation that called it finished. -/
theorem runHandler_eq_next {reading : Option Nat} {cs : List CallerCall} {k : Nat} {finish : Device → Device} {s t : State}
    (h : runHandler reading cs k finish s = .next t) :
    ∃ u d, runCalls reading cs s = .next u ∧ u.devices[k]? = some d ∧ t = u.setDevice k (finish d) := by
  obtain ⟨u, hu, h⟩ := andThen_eq_next.mp h
  obtain ⟨d, hd, h⟩ := withDevice_eq_next h
  cases h
  exact ⟨u, d, hu, hd, rfl⟩

/-- A handler that invokes nothing. -/
theorem runHandler_quiet {reading : Option Nat} {k : Nat} {finish : Device → Device} {s : State} {d e : Device}
    (h : s.devices[k]? = some e) :
    runHandler reading [] k finish (s.setDevice k d) = .next (s.setDevice k (finish d)) := by
  simp [runHandler, runCalls, withDevice_some (State.setDevice_get d h)]

/-! ## The sender -/

@[simp] theorem Device.sendChunks_isOpen (type : Byte) (cs : List (List Byte)) (d : Device) :
    (d.sendChunks type cs).isOpen = d.isOpen := by
  induction cs generalizing d with
  | nil => rfl
  | cons c cs ih => unfold Device.sendChunks; split <;> simp [ih]

@[simp] theorem Device.sendChunks_rx (type : Byte) (cs : List (List Byte)) (d : Device) :
    (d.sendChunks type cs).rx = d.rx := by
  induction cs generalizing d with
  | nil => rfl
  | cons c cs ih => unfold Device.sendChunks; split <;> simp [ih]

@[simp] theorem Device.sendChunks_binding (type : Byte) (cs : List (List Byte)) (d : Device) :
    (d.sendChunks type cs).binding = d.binding := by
  induction cs generalizing d with
  | nil => rfl
  | cons c cs ih => unfold Device.sendChunks; split <;> simp [ih]

/-- The atomic SEND writes no register of the sender: only `TXS` grows (R100). -/
theorem Device.sendChunks_tx (type : Byte) (cs : List (List Byte)) (d : Device) :
    ∃ txs, (d.sendChunks type cs).tx = { d.tx with txs := txs } := by
  induction cs generalizing d with
  | nil => exact ⟨d.tx.txs, rfl⟩
  | cons c cs ih =>
    unfold Device.sendChunks
    split
    · obtain ⟨txs, h⟩ := ih (d.callTxWrite (frameBytes type c)).2
      exact ⟨txs, by rw [h]; simp⟩
    · exact ⟨_, by rw [Device.ret_tx, Device.callTxWrite_tx]⟩

@[simp] theorem Device.send_isOpen (d : Device) (form : SendForm) (type : Byte) (count : Count) (data : List Byte) :
    (d.send form type count data).isOpen = d.isOpen := by
  cases form <;> simp [Device.send]

/-- SEND writes no register of the receive datapath (R39, R100). -/
@[simp] theorem Device.send_rx (d : Device) (form : SendForm) (type : Byte) (count : Count) (data : List Byte) :
    (d.send form type count data).rx = d.rx := by
  cases form <;> simp [Device.send]

@[simp] theorem Device.send_binding (d : Device) (form : SendForm) (type : Byte) (count : Count) (data : List Byte) :
    (d.send form type count data).binding = d.binding := by
  cases form <;> simp [Device.send]

theorem opTxWrite_eq_next {k : Nat} {s t : State} (h : opTxWrite k s = .next t) :
    ∃ d, s.devices[k]? = some d ∧ d.isOpen = true ∧ d.tx.busy = true ∧ d.nextChunk.length = d.nextChunkLength ∧
      t = s.setDevice k d.sendChunk := by
  obtain ⟨d, hd, ho, h⟩ := withOpen_eq_next h
  split at h
  · cases h
  · split at h
    · cases h
    · cases h
      exact ⟨d, hd, ho, by simp_all, by simp_all, rfl⟩

theorem opTxWrite_runs {k : Nat} {d : Device} {s : State} (hd : s.devices[k]? = some d) (ho : d.isOpen = true)
    (hb : d.tx.busy = true) (hc : d.nextChunk.length = d.nextChunkLength) :
    opTxWrite k s = .next (s.setDevice k d.sendChunk) := by
  simp [opTxWrite, withOpen_open hd ho, hb, hc]

/-! ## The receive machine -/

@[simp] theorem Device.faulted_iff (d : Device) : d.faulted = true ↔ d.rx.fault ≠ .none := by
  cases h : d.rx.fault <;> simp [Device.faulted, causeCode, h]

theorem Device.faulted_eq_false (d : Device) : d.faulted = false ↔ d.rx.fault = .none := by
  cases h : d.rx.fault <;> simp [Device.faulted, causeCode, h]

/-- DELIVER on an open device is one of: already faulted, over the capacity, or the append and what follows it (R148). -/
theorem opDeliver_open {k : Nat} {bs : List Byte} {s : State} {d : Device} (hd : s.devices[k]? = some d)
    (ho : d.isOpen = true) :
    opDeliver k bs s =
      if d.faulted then .next (s.setDevice k ((d.consume bs).ret Config.err))
      else if 256 < d.rx.acc.toNat + bs.length then .next (s.setDevice k ((d.consume bs).raise .framingOverflow))
      else afterAppend k ((d.consume bs).append bs) s := by
  simp [opDeliver, withOpen_open hd ho]

/-- `acc` after an append that fits the buffer. -/
theorem Device.append_acc {d : Device} {bs : List Byte} (h : d.rx.acc.toNat + bs.length ≤ 256) :
    ((d.consume bs).append bs).rx.acc.toNat = d.rx.acc.toNat + bs.length := by
  simp; omega

/-- The hand-over of a packet that answers a next state. -/
theorem handOver_eq_next {k : Nat} {d : Device} {s t : State} (h : handOver k d s = .next t) :
    d.frameLength ≤ 254 ∧ ∃ u e, runCalls (some k) d.takeOnRead.1.calls (s.setDevice k d.madeOnRead) = .next u ∧
      u.devices[k]? = some e ∧ t = u.setDevice k (e.afterOnRead d.takeOnRead.1.status) := by
  unfold handOver at h
  split at h
  · cases h
  · rename_i hl
    obtain ⟨u, e, hu, he, rfl⟩ := runHandler_eq_next h
    exact ⟨by simp at hl; omega, u, e, hu, he, rfl⟩

/-- A hand-over to a handler that invokes nothing. -/
theorem handOver_quiet {k : Nat} {d e : Device} {s : State} (he : s.devices[k]? = some e) (hl : d.frameLength ≤ 254)
    (hq : d.takeOnRead.1.calls = []) :
    handOver k d s = .next (s.setDevice k (d.madeOnRead.afterOnRead d.takeOnRead.1.status)) := by
  rw [handOver, if_neg (by simp; omega), hq, runHandler_quiet he]

/-! ## Feeding -/

@[simp] theorem feed_nil (k fuel : Nat) (s : State) : feed k fuel [] s = .next s := by
  cases fuel <;> rfl

theorem feed_cons {k fuel : Nat} {b : Byte} {bs : List Byte} {s : State} {d : Device} (hd : s.devices[k]? = some d)
    (ho : d.isOpen = true) :
    feed k (fuel + 1) (b :: bs) s =
      if d.faulted then .next s
      else andThen (opDeliver k ((b :: bs).take d.nextReadSize.toNat) s)
        (feed k fuel ((b :: bs).drop d.nextReadSize.toNat)) := by
  simp [feed, withOpen_open hd ho]

end Sys2Proof.Machine
end

