-- ==== Sys2Proof/Laws/Answers.lean ====
section
/-! SUPPORT. What taking an answer from the environment does to a device (the terms of Safety's `Taken`), and the derived values of
the receive machine in each of its states. -/

namespace Sys2Proof.Machine

/-! ## Answers -/

/-- ON_READ's answer, and the device after it. -/
theorem Device.takeOnRead_of {d : Device} {a : HandlerAnswer} {rest : List HandlerAnswer} {f : FreeKey}
    (h : Answers d.env.onRead d.fresh a rest f) :
    d.takeOnRead = (a, { d with env := { d.env with onRead := rest }, fresh := f }) := by
  unfold Device.takeOnRead
  rcases h with ⟨h1, h2⟩ | ⟨h1, h2, h3, h4⟩
  · simp [h1, h2]
  · simp only [h1, h2, h3, h4, Device.freeAnswer, Device.bump]
    rw [← h1]

/-- ON_WRITE_COMPLETE's answer, and the device after it. -/
theorem Device.takeOnWriteComplete_of {d : Device} {a : HandlerAnswer} {rest : List HandlerAnswer} {f : FreeKey}
    (h : Answers d.env.onWriteComplete d.fresh a rest f) :
    d.takeOnWriteComplete = (a, { d with env := { d.env with onWriteComplete := rest }, fresh := f }) := by
  unfold Device.takeOnWriteComplete
  rcases h with ⟨h1, h2⟩ | ⟨h1, h2, h3, h4⟩
  · simp [h1, h2]
  · simp only [h1, h2, h3, h4, Device.freeAnswer, Device.bump]
    rw [← h1]

/-- ON_CLOSE's answer, and the device after it. -/
theorem Device.takeOnClose_of {d : Device} {a : HandlerAnswer} {rest : List HandlerAnswer} {f : FreeKey}
    (h : Answers d.env.onClose d.fresh a rest f) :
    d.takeOnClose = (a, { d with env := { d.env with onClose := rest }, fresh := f }) := by
  unfold Device.takeOnClose
  rcases h with ⟨h1, h2⟩ | ⟨h1, h2, h3, h4⟩
  · simp [h1, h2]
  · simp only [h1, h2, h3, h4, Device.freeAnswer, Device.bump]
    rw [← h1]

/-- TX_WRITE's answer, and the device after it. -/
theorem Device.takeTxWrite_of {d : Device} {a : WriteAnswer} {rest : List WriteAnswer} {f : FreeKey}
    (h : WriteAnswers d.env.txWrite d.fresh a rest f) :
    d.takeTxWrite = (a, { d with env := { d.env with txWrite := rest }, fresh := f }) := by
  unfold Device.takeTxWrite
  rcases h with ⟨h1, h2⟩ | ⟨h1, h2, h3, h4⟩
  · simp [h1, h2]
  · simp only [h1, h2, h3, h4, freeWriteAnswer, Device.bump]
    rw [← h1]

/-- T_OPEN's answer, and the device after it. -/
theorem Device.takeTOpen_of {d : Device} {a : Option Token} {rest : List (Option Token)} {f : FreeKey}
    (h : Taken d.env.tOpen (Config.freeTOpen d.fresh) d.fresh a rest f) :
    d.takeTOpen = (a, { d with env := { d.env with tOpen := rest }, fresh := f }) := by
  unfold Device.takeTOpen
  rcases h with ⟨h1, h2⟩ | ⟨h1, h2, h3, h4⟩
  · simp [h1, h2]
  · simp only [h1, h2, h3, h4, Device.bump]
    rw [← h1]

/-- Whether allocation succeeds, and the device after it. -/
theorem Device.takeAlloc_of {d : Device} {a : Bool} {rest : List Bool} {f : FreeKey}
    (h : Taken d.env.alloc (Config.freeAlloc d.fresh) d.fresh a rest f) :
    d.takeAlloc = (a, { d with env := { d.env with alloc := rest }, fresh := f }) := by
  unfold Device.takeAlloc
  rcases h with ⟨h1, h2⟩ | ⟨h1, h2, h3, h4⟩
  · simp [h1, h2]
  · simp only [h1, h2, h3, h4, Device.bump]
    rw [← h1]

/-- Whether installing succeeds, and the device after it. -/
theorem Device.takeInstall_of {d : Device} {a : Bool} {rest : List Bool} {f : FreeKey}
    (h : Taken d.env.install (Config.freeInstall d.fresh) d.fresh a rest f) :
    d.takeInstall = (a, { d with env := { d.env with install := rest }, fresh := f }) := by
  unfold Device.takeInstall
  rcases h with ⟨h1, h2⟩ | ⟨h1, h2, h3, h4⟩
  · simp [h1, h2]
  · simp only [h1, h2, h3, h4, Device.bump]
    rw [← h1]

/-- TX_WRITE grows `TXS` and the trace and takes an answer; nothing else. -/
theorem Device.callTxWrite_spec (d : Device) (bytes : List Byte) :
    (d.callTxWrite bytes).2 =
      { d with tx := { d.tx with txs := (d.callTxWrite bytes).2.tx.txs }
               trace := d.trace ++ [.txWrite bytes (d.callTxWrite bytes).1]
               env := { d.env with txWrite := (d.callTxWrite bytes).2.env.txWrite }
               fresh := (d.callTxWrite bytes).2.fresh } := by
  unfold Device.callTxWrite Device.takeTxWrite
  split <;> rfl

/-! ## The receive machine -/

/-- `next_read_size` while the header is awaited (R20). -/
theorem Device.nextReadSize_header {d : Device} (ho : d.isOpen = true) (hf : d.rx.fault = .none) (h : d.rx.acc.toNat < 2) :
    d.nextReadSize = BitVec.ofNat 8 (2 - d.rx.acc.toNat) := by
  simp [Device.nextReadSize, ho, hf, Device.need, h]

/-- `next_read_size` once the header is in (R20). -/
theorem Device.nextReadSize_payload {d : Device} (ho : d.isOpen = true) (hf : d.rx.fault = .none) (h : 2 ≤ d.rx.acc.toNat)
    (hg : d.got ≤ d.frameLength) : d.nextReadSize = BitVec.ofNat 8 (d.frameLength - d.got) := by
  simp [Device.nextReadSize, ho, hf, Device.need, show ¬ d.rx.acc.toNat < 2 by omega, hg]

/-- The state of the receive machine of an open device, from its registers (R13). -/
theorem Device.rxState_cases {d : Device} (ho : d.isOpen = true) :
    (d.rx.fault ≠ .none ∧ d.rxState = .faulted) ∨
    (d.rx.fault = .none ∧ d.rx.acc.toNat < 2 ∧ d.rxState = .awaitingHeader) ∨
    (d.rx.fault = .none ∧ 2 ≤ d.rx.acc.toNat ∧ d.got < d.frameLength ∧ d.rxState = .awaitingPayload) ∨
    (d.rx.fault = .none ∧ 2 ≤ d.rx.acc.toNat ∧ d.got = d.frameLength ∧ d.rxState = .packetReady) ∨
    (d.rx.fault = .none ∧ 2 ≤ d.rx.acc.toNat ∧ d.frameLength < d.got ∧ d.rxState = .overrun) := by
  by_cases hf : d.rx.fault = .none
  · have hf' := (Device.faulted_eq_false d).mpr hf
    by_cases h2 : d.rx.acc.toNat < 2
    · exact .inr (.inl ⟨hf, h2, by simp only [Device.rxState, ho, hf', Config.hdrSize, if_pos h2]; simp⟩)
    · rcases Nat.lt_trichotomy d.got d.frameLength with h | h | h
      · exact .inr (.inr (.inl ⟨hf, by omega, h, by
          simp only [Device.rxState, ho, hf', Config.hdrSize, if_neg h2, if_pos h]; simp⟩))
      · exact .inr (.inr (.inr (.inl ⟨hf, by omega, h, by
          simp only [Device.rxState, ho, hf', Config.hdrSize, if_neg h2, h]; simp⟩)))
      · exact .inr (.inr (.inr (.inr ⟨hf, by omega, h, by
          simp only [Device.rxState, ho, hf', Config.hdrSize, if_neg h2, if_neg (show ¬ d.got < d.frameLength by omega),
            if_neg (show ¬ d.got = d.frameLength by omega)]; simp⟩)))
  · exact .inl ⟨hf, by simp [Device.rxState, ho, hf]⟩

/-- What CLOSE leaves in `RBUF` is in the canonical form. -/
theorem Device.release_rbuf_wf (d : Device) : d.release.rx.rbuf.wf := by
  have h : (Memory.tabulate (Config.freeBufferByte d.fresh) Config.cap).wf :=
    Memory.tabulate_wf (Config.freeBufferByte d.fresh) Config.cap (Nat.le_refl _)
  have e : d.release.rx.rbuf = Memory.tabulate (Config.freeBufferByte d.fresh) Config.cap := by simp only [Device.release]
  rwa [← e] at h

end Sys2Proof.Machine
end

