-- ==== Sys2Proof/Laws/Encoding.lean ====
section
/-! SUPPORT. The byte order and the operation-select code: the parts of a record are read back as they were written. -/

namespace Sys2Proof

theorem word16_toNat (hi lo : Byte) : (word16 hi lo).toNat = hi.toNat * 256 + lo.toNat := by
  have := hi.isLt; have := lo.isLt
  rw [word16, BitVec.toNat_ofNat]; omega

theorem word32_toNat (b3 b2 b1 b0 : Byte) :
    (word32 b3 b2 b1 b0).toNat = b3.toNat * 16777216 + b2.toNat * 65536 + b1.toNat * 256 + b0.toNat := by
  have := b3.isLt; have := b2.isLt; have := b1.isLt; have := b0.isLt
  rw [word32, BitVec.toNat_ofNat]; omega

/-- A byte of a value, as a number. -/
theorem byte_toNat {w : Nat} (v : BitVec w) (k : Nat) : (v.extractLsb' k 8).toNat = v.toNat / 2 ^ k % 256 := by
  simp [Nat.shiftRight_eq_div_pow]

theorem digits2 {n : Nat} (h : n < 65536) : n / 256 % 256 * 256 + n % 256 = n := by
  rw [Nat.mod_eq_of_lt (show n / 256 < 256 by omega)]; omega

theorem digits4 {n : Nat} (h : n < 4294967296) :
    n / 16777216 % 256 * 16777216 + n / 65536 % 256 * 65536 + n / 256 % 256 * 256 + n % 256 = n := by
  rw [Nat.mod_eq_of_lt (show n / 16777216 < 256 by omega)]
  have h1 := Nat.div_add_mod n 256
  have h2 := Nat.div_add_mod (n / 256) 256
  have h3 := Nat.div_add_mod (n / 65536) 256
  rw [Nat.div_div_eq_div_mul] at h2 h3
  omega

/-- The two bytes of a value, put together again. -/
theorem word16_of_bytes (v : BitVec 16) : word16 (v.extractLsb' 8 8) (v.extractLsb' 0 8) = v := by
  apply BitVec.eq_of_toNat_eq
  rw [word16_toNat, byte_toNat, byte_toNat]
  simpa using digits2 v.isLt

/-- The four bytes of a value, put together again. -/
theorem word32_of_bytes (v : Token) :
    word32 (v.extractLsb' 24 8) (v.extractLsb' 16 8) (v.extractLsb' 8 8) (v.extractLsb' 0 8) = v := by
  apply BitVec.eq_of_toNat_eq
  rw [word32_toNat, byte_toNat, byte_toNat, byte_toNat, byte_toNat]
  simpa using digits4 v.isLt

/-- Two bytes put together give back these two bytes. -/
theorem bytes16_of_word (a b : Byte) : bytes16 (word16 a b) = [a, b] := by
  have := a.isLt; have := b.isLt
  simp only [bytes16, List.cons.injEq, and_true]
  constructor <;> (apply BitVec.eq_of_toNat_eq; rw [byte_toNat, word16_toNat]; simp only [Nat.reducePow]; omega)

/-- Four bytes put together give back these four bytes. -/
theorem bytes32_of_word (a b c d : Byte) : bytes32 (word32 a b c d) = [a, b, c, d] := by
  have := a.isLt; have := b.isLt; have := c.isLt; have := d.isLt
  simp only [bytes32, List.cons.injEq, and_true]
  refine ⟨?_, ?_, ?_, ?_⟩ <;>
    (apply BitVec.eq_of_toNat_eq; rw [byte_toNat, word32_toNat]; simp only [Nat.reducePow]; omega)

/-- The code is in the low four bits of an operation's first byte, and the high four are 0. -/
theorem operation_code (c : BitVec 4) :
    (0#4 ++ c : BitVec 8).extractLsb' 4 4 = 0#4 ∧ (0#4 ++ c : BitVec 8).extractLsb' 0 4 = c := by
  revert c; decide

theorem byteOf_toNat {n : Nat} (h : n < 256) : (byteOf n).toNat = n := by
  simp [byteOf]; omega

/-- The record of an operation reaches the decoder of its operands. -/
theorem decode_operationRecord (c : BitVec 4) (operands : List Byte) {dev : Nat} (h : dev < 256) :
    decode (operationRecord c dev operands) = decodeCode c dev operands := by
  simp [decode, operationRecord, decodeOperation, operation_code, byteOf_toNat h]

end Sys2Proof
end

