-- ==== Sys2Proof/Laws/PerInstr.lean ====
section
/-! SUPPORT. A statement about every instruction as syntax, one lemma per constructor. -/

namespace Sys2Proof.Laws.Encodes

/-- The request that stands for an instruction arrives at one of the two spaces of the table: a frame of the wire format on the line of
its device, an operation at the operation port with the device in its second byte; either has at least its two-byte head. -/
def Statement (i : Instr) : Prop :=
  ((encode i).port = .line (Machine.instrDevice i) ∧ 2 ≤ (encode i).bytes.length) ∨
  ((encode i).port = .operation ∧ (encode i).bytes[1]? = some (byteOf (Machine.instrDevice i)))

theorem frame (dev : Nat) (type : Byte) (value : List Byte) : Statement (.frame dev type value) :=
  .inl ⟨rfl, by simp [encode, frameBytes]⟩
theorem frameRsvdL255 (dev : Nat) (type : Byte) (value : List Byte) : Statement (.frameRsvdL255 dev type value) :=
  .inl ⟨rfl, by simp [encode]⟩
theorem openDevice (dev : Nat) (add : Bool) (remove : Bool) (port : Token) (baudrate : Token) (context : Token) : Statement (.openDevice dev add remove port baudrate context) :=
  .inr ⟨rfl, rfl⟩
theorem close (dev : Nat) : Statement (.close dev) := .inr ⟨rfl, rfl⟩
theorem deliver (dev : Nat) (d : List Byte) : Statement (.deliver dev d) := .inr ⟨rfl, rfl⟩
theorem deliverFail (dev : Nat) : Statement (.deliverFail dev) := .inr ⟨rfl, rfl⟩
theorem send (dev : Nat) (form : SendForm) (type : Byte) (count : Count) (data : List Byte) : Statement (.send dev form type count data) :=
  .inr ⟨rfl, rfl⟩
theorem writeComplete (dev : Nat) (k : Token) : Statement (.writeComplete dev k) := .inr ⟨rfl, rfl⟩
theorem transportClose (dev : Nat) : Statement (.transportClose dev) := .inr ⟨rfl, rfl⟩
theorem onRead (dev : Nat) : Statement (.onRead dev) := .inr ⟨rfl, rfl⟩
theorem setReadSize (dev : Nat) : Statement (.setReadSize dev) := .inr ⟨rfl, rfl⟩
theorem txWrite (dev : Nat) : Statement (.txWrite dev) := .inr ⟨rfl, rfl⟩
theorem onWriteComplete (dev : Nat) (k : Token) : Statement (.onWriteComplete dev k) := .inr ⟨rfl, rfl⟩
theorem onClose (dev : Nat) : Statement (.onClose dev) := .inr ⟨rfl, rfl⟩
theorem tOpen (dev : Nat) (port : Token) (baudrate : Token) : Statement (.tOpen dev port baudrate) :=
  .inr ⟨rfl, rfl⟩
theorem tClose (dev : Nat) : Statement (.tClose dev) := .inr ⟨rfl, rfl⟩

end Sys2Proof.Laws.Encodes
end

