-- ==== Sys2Proof/Tests/Slice0.lean ====
section
/-! SUPPORT. Tests. Expected results are those of spec/95_test_vectors.md (the vector is named) or written out from the encodings of
spec/30_encoding.md. Then, for every statement with hypotheses, a state and operands that meet them. -/

namespace Sys2Proof.Tests

open Sys2Proof Sys2Proof.Machine

/- One proof at a time: the kernel's evaluations below would otherwise wait for one another in many threads. -/
set_option Elab.async false

/-- `n` zero bytes. -/
def zeros (n : Nat) : List Byte := List.replicate n 0#8

theorem zeros_length (n : Nat) : (zeros n).length = n := List.length_replicate

/-! ## Well-formedness: a term refused for each check -/

theorem test_wf_device : (Instr.close 256).wellFormed = false ∧ (Instr.close 255).wellFormed = true := by decide

theorem test_wf_frame : (Instr.frame 0 0#8 (zeros 255)).wellFormed = false ∧
    (Instr.frame 0 0#8 (zeros 254)).wellFormed = true := by
  rw [Instr.wellFormed, Instr.wellFormed, zeros_length, zeros_length]; decide

theorem test_wf_reserved_frame : (Instr.frameRsvdL255 0 0#8 (zeros 254)).wellFormed = false ∧
    (Instr.frameRsvdL255 0 0#8 (zeros 255)).wellFormed = true := by
  rw [Instr.wellFormed, Instr.wellFormed, zeros_length, zeros_length]; decide

theorem test_wf_delivery : (Instr.deliver 0 (zeros 512)).wellFormed = false ∧
    (Instr.deliver 0 (zeros 511)).wellFormed = true := by
  rw [Instr.wellFormed, Instr.wellFormed, zeros_length, zeros_length]; decide

theorem test_wf_send : (Instr.send 0 .atomic 0#8 0#16 (zeros 65536)).wellFormed = false ∧
    (Instr.send 0 .atomic 0#8 0#16 (zeros 65535)).wellFormed = true := by
  rw [Instr.wellFormed, Instr.wellFormed, zeros_length, zeros_length]; decide

/-! ## Decoding: words of R50, R52, R61, written out -/

/-- What the decoder reads from the operation record of `bytes`. -/
def operationOf (bytes : List Byte) : Option Instr := (decode ⟨.operation, bytes⟩).toOption

/-- What the decoder reads from `bytes` on the line of device 0. -/
def frameOf (bytes : List Byte) : Option Instr := (decode ⟨.line 0, bytes⟩).toOption

/-- E1, E5: `FRAME(06, [aa bb cc])`, `H` = 0x0603. -/
theorem test_decode_frame :
    frameOf [0x06#8, 0b00000011#8, 0xAA#8, 0xBB#8, 0xCC#8] = some (.frame 0 0x06#8 [0xAA#8, 0xBB#8, 0xCC#8]) := by decide
/-- R63: the value has exactly `length` bytes. -/
theorem test_decode_short_frame : frameOf [0x06#8, 0x03#8, 0xAA#8, 0xBB#8] = none := by decide
/-- E6: header `[06 ff]`. -/
theorem test_decode_reserved_frame :
    frameOf (0x06#8 :: 0b11111111#8 :: zeros 255) = some (.frameRsvdL255 0 0x06#8 (zeros 255)) := by
  decide +kernel
theorem test_decode_open :
    operationOf [0b00000000#8, 1#8, 2#8, 0#8, 0#8, 1#8, 2#8, 0#8, 0#8, 0#8, 9#8, 0xFF#8, 0#8, 0#8, 0#8] =
      some (.openDevice 1 true false 258#32 9#32 0xFF000000#32) := by decide
theorem test_decode_close : operationOf [0b00000001#8, 1#8] = some (.close 1) := by decide
theorem test_decode_deliver : operationOf [0b00000010#8, 0#8, 0#8, 2#8, 0x06#8, 0x03#8] = some (.deliver 0 [0x06#8, 0x03#8]) := by
  decide
theorem test_decode_deliver_fail : operationOf [0b00000011#8, 0#8] = some (.deliverFail 0) := by decide
theorem test_decode_send :
    operationOf [0b00000100#8, 0#8, 1#8, 0x07#8, 0x02#8, 0x58#8, 0#8, 1#8, 0x11#8] =
      some (.send 0 .start 0x07#8 600#16 [0x11#8]) := by decide
theorem test_decode_write_complete : operationOf [0b00000101#8, 0#8, 0#8, 0#8, 1#8, 0#8] = some (.writeComplete 0 256#32) := by
  decide
theorem test_decode_transport_close : operationOf [0b00000110#8, 0#8] = some (.transportClose 0) := by decide
theorem test_decode_on_read : operationOf [0b00001000#8, 0#8] = some (.onRead 0) := by decide
theorem test_decode_set_read_size : operationOf [0b00001001#8, 0#8] = some (.setReadSize 0) := by decide
theorem test_decode_tx_write : operationOf [0b00001010#8, 0#8] = some (.txWrite 0) := by decide
theorem test_decode_on_write_complete :
    operationOf [0b00001011#8, 0#8, 0#8, 0#8, 0#8, 5#8] = some (.onWriteComplete 0 5#32) := by decide
theorem test_decode_on_close : operationOf [0b00001100#8, 0#8] = some (.onClose 0) := by decide
theorem test_decode_t_open :
    operationOf [0b00001101#8, 0#8, 0#8, 0#8, 0#8, 1#8, 0#8, 0#8, 0#8, 2#8] = some (.tOpen 0 1#32 2#32) := by decide
theorem test_decode_t_close : operationOf [0b00001110#8, 0#8] = some (.tClose 0) := by decide
/-- R61: 0x7 and 0xF select nothing. -/
theorem test_decode_unused : operationOf [0b00000111#8, 0#8] = none ∧ operationOf [0b00001111#8, 0#8] = none := by decide

/-! ## One step each -/

/-- A handler that answers `r` and invokes `calls`. -/
def answer (r : Status) (calls : List CallerCall) : HandlerAnswer := { status := r, calls := calls }

/-- The environment of the vectors: handlers answer 0, the transport accepts. -/
def kind : Env :=
  { onRead := [answer 0#32 []], onWriteComplete := [answer 0#32 []], onClose := [answer 0#32 []], txWrite := [.accepted]
    tOpen := [some 9#32], alloc := [true], install := [true] }

/-- An open device with `bs` in its buffer. -/
def holding (bs : List Byte) : Device :=
  { Device.powerOn 0 with
    isOpen := true
    rx := { acc := BitVec.ofNat 9 bs.length, fault := .none, rbuf := Memory.putRun [] 0 bs, rxs := [] }
    env := kind }

/-- The same, faulted. -/
def faulty (bs : List Byte) (c : Cause) : Device := { holding bs with rx := { (holding bs).rx with fault := c } }

/-- A closed device in the same environment. -/
def shut : Device := { Device.powerOn 0 with env := kind }

/-- The same device with other answers. -/
def answering (d : Device) (e : Env) : Device := { d with env := e }

/-- The key of device 0's first free value. -/
abbrev key0 : FreeKey := { device := 0, count := 0 }

/-- A machine of two devices. -/
def two (d e : Device) : State := { devices := [d, e], inbox := [] }

/-- Device 0 after an instruction, if it answers a next state. -/
def after (i : Instr) (d : Device) : Option Device :=
  match exec i (two d shut) with
  | .next t => t.devices[0]?
  | .fault _ => none
  | .refused _ => none

/-- `acc`, `fault`, the result and the new transactions of an instruction. -/
def rx (i : Instr) (d : Device) : Option (Acc × Cause × Option Status × List Event) :=
  (after i d).map fun e => (e.rx.acc, e.rx.fault, e.result, e.trace)

/-- V1, through a frame on the line. -/
theorem test_frame : rx (.frame 0 0x06#8 [0xAA#8, 0xBB#8, 0xCC#8]) (holding []) =
    some (0#9, .none, some 0#32,
      [.setReadSize 3#8, .onRead 0#32 0x06#8 3#8 [0xAA#8, 0xBB#8, 0xCC#8] 0#32, .setReadSize 2#8]) := by decide
/-- V4. -/
theorem test_frame_empty : rx (.frame 0 0x03#8 []) (holding []) =
    some (0#9, .none, some 0#32, [.onRead 0#32 0x03#8 0#8 [] 0#32, .setReadSize 2#8]) := by decide
/-- V25. -/
theorem test_reserved_frame : rx (.frameRsvdL255 0 0x06#8 (zeros 255)) (holding []) =
    some (2#9, .framingOverflow, some 0xFFFFFFFF#32, [.setReadSize 255#8]) := by decide +kernel
/-- L1. -/
theorem test_open : rx (.openDevice 0 true true 1#32 2#32 3#32) shut =
    some (0#9, .none, some 0#32, [.tOpen 1#32 2#32 (some 9#32), .setReadSize 2#8]) := by decide
/-- L2. -/
theorem test_open_no_hook : (after (.openDevice 0 true false 1#32 2#32 3#32) shut).map (fun e => (e.isOpen, e.result, e.trace)) =
    some (false, some 0xFFFFFFFF#32, []) := by decide
/-- L6. -/
theorem test_close : (after (.close 0) (holding [6#8, 9#8, 1#8, 1#8, 1#8])).map (fun e => (e.isOpen, e.result, e.trace)) =
    some (false, some 0#32, [.tClose]) := by decide
/-- V20: 250 + 10 = 260 > 256. -/
theorem test_deliver_overflow : rx (.deliver 0 (zeros 10)) (holding (7#8 :: 0xFE#8 :: zeros 248)) =
    some (250#9, .framingOverflow, some 0xFFFFFFFF#32, []) := by decide +kernel
/-- V24: requested 2, got 3. -/
theorem test_deliver_overrun : rx (.deliver 0 [0xBB#8, 0xCC#8, 0xDD#8]) (holding [0x06#8, 0x03#8, 0xAA#8]) =
    some (6#9, .packetOverrun, some 0xFFFFFFFF#32, []) := by decide
/-- V27. -/
theorem test_deliver_fail : rx (.deliverFail 0) (holding [0x06#8]) =
    some (1#9, .transportReadFail, some 0xFFFFFFFF#32, []) := by decide
/-- T3, on a faulted decoder as in V28. -/
theorem test_send : (after (.send 0 .atomic 0x07#8 3#16 [1#8, 2#8, 3#8]) (faulty [] .framingOverflow)).map
    (fun e => (e.result, e.trace, e.tx.txs)) =
    some (some 0#32, [.txWrite [0x07#8, 3#8, 1#8, 2#8, 3#8] true], [0x07#8, 3#8, 1#8, 2#8, 3#8]) := by decide
/-- T13: the second of three writes fails and the third is never made. -/
theorem test_send_fails : (after (.send 0 .atomic 0x07#8 600#16 (zeros 600))
    (answering (holding []) { kind with txWrite := [.accepted, .failure 0] })).map
    (fun e => (e.result, e.trace.length, e.tx.txs.length)) = some (some 0xFFFFFFFF#32, 2, 256) := by decide +kernel
/-- L10. -/
theorem test_write_complete : (after (.writeComplete 0 5#32)
    (answering (holding []) { kind with onWriteComplete := [answer 0xFFFFFFFD#32 []] })).map
    (fun e => (e.result, e.rx.fault, e.trace)) =
    some (some 0xFFFFFFFD#32, .none, [.onWriteComplete 0#32 5#32 0xFFFFFFFD#32]) := by decide
/-- L12. -/
theorem test_transport_close : (after (.transportClose 0)
    (answering (holding []) { kind with onClose := [answer 0#32 [.close 0]] })).map
    (fun e => (e.isOpen, e.result, e.trace)) =
    some (false, some 0#32, [.onClose 0#32 0#32, .tClose, .returned (some 0#32)]) := by decide
/-- V12: the handler answers 7. -/
theorem test_on_read : rx (.onRead 0)
    (answering (holding [0x06#8, 1#8, 0x11#8]) { kind with onRead := [answer 7#32 []] }) =
    some (0#9, .none, some 7#32, [.onRead 0#32 0x06#8 1#8 [0x11#8] 7#32, .setReadSize 2#8]) := by decide
/-- V9: one byte is in, `RBUF[1]` is still 03 from the frame before, and the request is 1. -/
theorem test_set_read_size : (after (.setReadSize 0)
    { holding [9#8, 3#8] with rx := { (holding [9#8, 3#8]).rx with acc := 1#9 } }).map (·.trace) =
    some [.setReadSize 1#8] := by decide
/-- T9, stepwise: after the first SEND_CHUNK `tx_off` = 254, `tx_rem` = 346. -/
theorem test_tx_write : (after (.txWrite 0)
    ((holding []).startSend 0x07#8 600#16 (zeros 600))).map (fun e => (e.tx.busy, e.tx.off, e.tx.rem, e.result)) =
    some (true, 254#16, 346#16, none) := by decide +kernel
/-- T9, stepwise: after the third `tx_busy` = 0, result 0. -/
theorem test_tx_write_last : (after (.txWrite 0)
    { holding [] with tx := { busy := true, type := 7#8, off := 508#16, rem := 92#16, sdata := zeros 600, txs := [] } }).map
    (fun e => (e.tx.busy, e.result, e.tx.txs.length)) = some (false, some 0#32, 94) := by decide +kernel
/-- L9. -/
theorem test_on_write_complete : (after (.onWriteComplete 0 256#32) (holding [1#8])).map (fun e => (e.result, e.rx.acc, e.trace)) =
    some (some 0#32, 1#9, [.onWriteComplete 0#32 256#32 0#32]) := by decide
/-- L11. -/
theorem test_on_close : (after (.onClose 0) (holding [6#8, 9#8, 1#8, 1#8])).map (fun e => (e.isOpen, e.rx.acc, e.trace)) =
    some (true, 4#9, [.onClose 0#32 0#32]) := by decide
/-- L1 and L3: the two answers of T_OPEN. -/
theorem test_t_open : (after (.tOpen 0 1#32 2#32) shut).map (fun e => (e.isOpen, e.trace)) =
    some (false, [.tOpen 1#32 2#32 (some 9#32)]) ∧
    (after (.tOpen 0 1#32 2#32) (answering shut { kind with tOpen := [none] })).map (fun e => (e.isOpen, e.trace)) =
    some (false, [.tOpen 1#32 2#32 none]) := by decide
/-- R123: T_CLOSE has no response. -/
theorem test_t_close : (after (.tClose 0) (holding [])).map (fun e => (e.isOpen, e.result, e.trace)) =
    some (true, none, [.tClose]) := by decide
/-- A row's word, placed after reset, is fetched and run: OPEN reaches the transport, and L8: CLOSE on a closed device has no step. -/
theorem test_fetch :
    step (State.reset.withFetchWord 8 0x0) = exec (.openDevice 0 true true 0#32 0#32 0#32) State.reset ∧
    step (State.reset.withFetchWord 8 0x1) = .refused .deviceClosed := ⟨rfl, rfl⟩

/-- R60, R14: the sign of a status tells failure; the codes of `fault`. -/
theorem test_status : isFailure Config.err = true ∧ isFailure Config.ok = false ∧ isFailure (-9#32) = true ∧ isFailure 256#32 = false ∧
    [Cause.none, .framingOverflow, .packetOverrun, .transportReadFail].map causeCode = [0#2, 1#2, 2#2, 3#2] := by decide

/-- R44, R54: at reset no two devices draw the same free value, and a device never draws one twice. -/
theorem test_free_keys : (State.reset.devices.map Device.fresh).Nodup ∧ key0.next ≠ key0 ∧ key0.next.device = 0 := by decide

/-! ## The statements' hypotheses can be met

`witness_<Name>` meets the hypotheses of `Obligations.<Name>` together; where the statement has clauses over one input, at the ends of
their ranges. -/

/-- `bs` waiting at the operation port. -/
def waiting (s : State) (bs : List Byte) : State := s.place ⟨.operation, bs⟩

/-- A frame header of length 10 in. -/
abbrev half : Device := holding [6#8, 10#8]

/-- The packet `06 [11]` in, the state in which it is handed over. -/
abbrev ready : Device := holding [6#8, 1#8, 0x11#8]

/-- A SEND of 600 bytes in progress. -/
abbrev sending : Device := (holding []).startSend 7#8 600#16 (zeros 600)

theorem witness_StepKeepsInvariant : (waiting (two half shut) [2#8, 0#8, 0#8, 1#8, 9#8]).Inv ∧
    ∃ t, step (waiting (two half shut) [2#8, 0#8, 0#8, 1#8, 9#8]) = .next t := ⟨by decide, _, rfl⟩

/-- Awaiting the header, the payload, and the one rest state with `acc` = 256 (V26). -/
theorem witness_RestStateRanges :
    (∃ t, step (two (holding [6#8]) shut) = .next t ∧ holding [6#8] ∈ t.devices) ∧
    (∃ t, step (two half shut) = .next t ∧ half ∈ t.devices) ∧
    (two (holding (6#8 :: 0xFF#8 :: zeros 254)) shut).Inv ∧
    (∃ t, step (two (holding (6#8 :: 0xFF#8 :: zeros 254)) shut) = .next t ∧
      holding (6#8 :: 0xFF#8 :: zeros 254) ∈ t.devices) ∧
    (holding (6#8 :: 0xFF#8 :: zeros 254)).rx.acc.toNat = 256 ∧
    (two (holding [6#8]) half).Inv ∧ half.isOpen = true ∧ half.rx.fault = .none :=
  ⟨⟨_, rfl, List.mem_cons_self⟩, ⟨_, rfl, List.mem_cons_self⟩, by decide +kernel, ⟨_, rfl, List.mem_cons_self⟩, by decide +kernel, by decide,
    by decide, by decide⟩

theorem witness_StepRunsDecoded : (waiting State.reset [0xE#8, 0#8]).inbox = [⟨.operation, [0xE#8, 0#8]⟩] ∧
    (decode ⟨.operation, [0xE#8, 0#8]⟩).toOption = some (.tClose 0) := by decide

theorem witness_StepRefusesUndecodable : (waiting State.reset [7#8, 0#8]).inbox = [⟨.operation, [7#8, 0#8]⟩] ∧
    decode ⟨.operation, [7#8, 0#8]⟩ = .error .unusedCode := ⟨rfl, rfl⟩

theorem witness_StepParksWithoutRequest : State.reset.inbox = [] := rfl

theorem witness_DecodeOfEncode : (Instr.frame 255 0#8 (zeros 254)).wellFormed = true ∧
    (Instr.deliver 0 (zeros 511)).wellFormed = true ∧
    (Instr.frameRsvdL255 0 0#8 (zeros 255)).wellFormed = true := by
  rw [Instr.wellFormed, Instr.wellFormed, Instr.wellFormed, zeros_length, zeros_length, zeros_length]; decide

theorem witness_EncodeOfDecode : decode ⟨.line 255, [6#8, 0#8]⟩ = .ok (.frame 255 6#8 []) := rfl

theorem witness_FrameDecodes : frameOf [6#8, 1#8, 9#8] = some (.frame 0 6#8 [9#8]) ∧ frameOf [6#8, 1#8] = none ∧
    frameOf (6#8 :: 0xFE#8 :: zeros 254) = some (.frame 0 6#8 (zeros 254)) := by decide +kernel

theorem witness_LifecycleRefusals : (two half shut).devices[0]? = some half ∧ half.isOpen = true ∧
    (two half shut).devices[1]? = some shut ∧ shut.isOpen = false := by decide

/-- A SEND in progress; none, and too little data; outside PacketReady by one byte on either side, and faulted. -/
theorem witness_EnablingConditions :
    (sending.isOpen = true ∧ sending.tx.busy = true) ∧
    ((two half shut).devices[0]? = some half ∧ half.isOpen = true ∧ half.tx.busy = false ∧ [0#8].length < (2#16).toNat) ∧
    ((holding [6#8, 1#8]).rx.acc.toNat - 2 < ((holding [6#8, 1#8]).rx.rbuf.get 1).toNat) ∧
    ((holding [6#8, 1#8, 2#8, 3#8]).rx.acc.toNat - 2 > ((holding [6#8, 1#8, 2#8, 3#8]).rx.rbuf.get 1).toNat) ∧
    (faulty [] .packetOverrun).rx.fault ≠ .none := by decide

theorem witness_FaultedDeviceReturnsErr : (two (faulty [1#8] .transportReadFail) shut).devices[0]? =
    some (faulty [1#8] .transportReadFail) ∧ (faulty [1#8] .transportReadFail).isOpen = true ∧
    (faulty [1#8] .transportReadFail).rx.fault ≠ .none := by decide

/-- V21: 257 bytes from `acc` = 0, the least overflow. -/
theorem witness_DeliverOverflow : (two (holding []) shut).devices[0]? = some (holding []) ∧ (holding []).isOpen = true ∧
    (holding []).rx.fault = .none ∧ 256 < (holding []).rx.acc.toNat + (zeros 257).length :=
  ⟨by decide, by decide, by decide, by rw [zeros_length]; decide⟩

/-- Both sides: 257 bytes, and V22's 256 bytes, which fit. -/
theorem witness_OverflowOnlyAboveCapacity :
    (rx (.deliver 0 (zeros 257)) (holding [])).map (·.2.1) = some .framingOverflow ∧
    (rx (.deliver 0 (9#8 :: 10#8 :: zeros 254)) (holding [])).map (·.2.1) = some .packetOverrun := by
  decide +kernel

theorem witness_DeliverAwaitingHeader : (two (holding []) shut).devices[0]? = some (holding []) ∧ (holding []).isOpen = true ∧
    (holding []).rx.fault = .none ∧ (holding []).rx.rbuf.wf ∧ (holding []).rx.acc.toNat + [6#8].length < 2 ∧
    (holding [6#8]).rx.acc.toNat + ([] : List Byte).length < 2 := by decide

/-- From 2 bytes in, and V26's 256 bytes in. -/
theorem witness_DeliverAwaitingPayload : (two (holding []) shut).devices[0]? = some (holding []) ∧ (holding []).isOpen = true ∧
    (holding []).rx.fault = .none ∧ (holding []).rx.rbuf.wf ∧ 2 ≤ (holding []).rx.acc.toNat + [6#8, 3#8].length ∧
    (holding []).rx.acc.toNat + [6#8, 3#8].length - 2 < (((holding []).append [6#8, 3#8]).rx.rbuf.get 1).toNat ∧
    (holding [6#8, 0xFF#8]).rx.acc.toNat + (zeros 254).length = 256 ∧
    254 < (((holding [6#8, 0xFF#8]).append (zeros 254)).rx.rbuf.get 1).toNat := by decide +kernel

/-- V24, and V22 with 256 bytes in. -/
theorem witness_DeliverOverrun : (holding [6#8]).isOpen = true ∧ (holding [6#8]).rx.fault = .none ∧ (holding [6#8]).rx.rbuf.wf ∧
    2 ≤ (holding [6#8]).rx.acc.toNat + [1#8, 0xAA#8, 7#8].length ∧
    (((holding [6#8]).append [1#8, 0xAA#8, 7#8]).rx.rbuf.get 1).toNat < (holding [6#8]).rx.acc.toNat + 3 - 2 ∧
    (((holding []).append (9#8 :: 10#8 :: zeros 254)).rx.rbuf.get 1).toNat < 256 - 2 := by decide +kernel

/-- V7's 256 bytes in one delivery, V4's 2. -/
theorem witness_DeliverCompletesPacket : (holding []).isOpen = true ∧ (holding []).rx.fault = .none ∧ (holding []).rx.rbuf.wf ∧
    Answers (holding []).env.onRead (holding []).fresh (answer 0#32 []) [] key0 ∧ (answer 0#32 []).calls = [] ∧
    (holding []).rx.acc.toNat + (7#8 :: 0xFE#8 :: zeros 254).length = 256 ∧
    256 - 2 = (((holding []).append (7#8 :: 0xFE#8 :: zeros 254)).rx.rbuf.get 1).toNat ∧
    2 - 2 = (((holding []).append [3#8, 0#8]).rx.rbuf.get 1).toNat := by decide +kernel

/-- Where the list of answers has run out. -/
theorem witness_Answers_free : Answers [] key0 { status := Config.freeStatus key0, calls := [] } [] key0.next := .inr ⟨rfl, rfl, rfl, rfl⟩

theorem witness_DeliverRunsHandlerInside : (two (holding []) shut).devices[0]? = some (holding []) ∧ (holding []).isOpen = true ∧
    (holding []).rx.fault = .none ∧ (holding []).rx.rbuf.wf ∧
    Answers (holding []).env.onRead (holding []).fresh (answer 0#32 []) [] key0 ∧
    2 - 2 = (((holding []).append [3#8, 0#8]).rx.rbuf.get 1).toNat ∧
    ∃ u, runCalls (some 0) (answer 0#32 []).calls (two (holding [3#8, 0#8]) shut) = .next u :=
  ⟨by decide, by decide, by decide, by decide, by decide, by decide, _, rfl⟩

theorem witness_DeliverFailLatches : (two half shut).devices[0]? = some half ∧ half.isOpen = true ∧ half.rx.fault = .none := by
  decide

/-- V5: awaiting the header and the payload. -/
theorem witness_EmptyDeliveryRepeatsRequest : half.isOpen = true ∧ half.rx.fault = .none ∧ half.rx.acc.toNat ≤ 256 ∧ half.AtRest ∧
    (holding [6#8]).AtRest := by decide

/-- Without a fault, and with one. -/
theorem witness_DeliverEndsWithRequest : (∃ t, exec (.deliver 0 [3#8, 0#8]) (two (holding []) shut) = .next t) ∧
    ∃ t, exec (.deliver 0 [3#8, 0#8, 1#8]) (two (holding []) shut) = .next t := ⟨⟨_, rfl⟩, _, rfl⟩

/-- V2 with an empty delivery, whole and short of its last byte. -/
theorem witness_ChunkingIndependence : (holding []).isOpen = true ∧ (holding []).rx.acc = 0#9 ∧ (holding []).rx.rbuf.wf ∧
    (holding []).QuietReads ∧ [0xAA#8].length ≤ 254 ∧
    [[6#8], [], [1#8, 0xAA#8]].flatten ++ [] = 6#8 :: BitVec.ofNat 8 1 :: [0xAA#8] ∧
    [[6#8], [], [1#8]].flatten ++ [0xAA#8] = 6#8 :: BitVec.ofNat 8 1 :: [0xAA#8] := by decide

/-- V1 and V4 one after another, each as requested. -/
theorem witness_HonestTransportNeverFaults : (holding []).isOpen = true ∧ (holding []).rx.acc = 0#9 ∧ (holding []).QuietReads ∧
    [[6#8, 1#8], [0xAA#8], [3#8]].flatten ++ [0#8] =
      ([(6#8, [0xAA#8]), (3#8, [])].map fun f => f.1 :: BitVec.ofNat 8 f.2.length :: f.2).flatten ∧
    honestRun 0 [[6#8, 1#8], [0xAA#8], [3#8]] (two (holding []) shut) := by
  refine ⟨by decide, by decide, by decide, by decide, ?_⟩
  refine ⟨fun d h => ?_, fun t h => ?_⟩
  · cases h; decide
  · cases h
    refine ⟨fun d h => ?_, fun t h => ?_⟩
    · cases h; decide
    · cases h
      exact ⟨fun d h => by cases h; decide, fun t _ => trivial⟩

/-- V25 and, short of the overflow, V26. -/
theorem witness_ReservedLengthNeverCompletes : (holding []).rx.acc = 0#9 ∧
    [[6#8, 0xFF#8], [1#8, 2#8]].flatten = 6#8 :: 0xFF#8 :: [1#8, 2#8] ∧
    ∃ t, runAll ([[6#8, 0xFF#8], [1#8, 2#8]].map (Instr.deliver 0)) (two (holding []) shut) = .next t :=
  ⟨by decide, by decide, _, rfl⟩

/-- V9: `RBUF[1]` is left over. -/
theorem witness_StaleBytesNeverObserved :
    SameButStale { holding [9#8] with rx := { (holding [9#8]).rx with rbuf := [(0, 9#8), (1, 3#8)] } } (holding [9#8]) ∧
    ∃ t, exec (.deliver 0 [1#8]) (two (holding [9#8]) shut) = .next t := by
  refine ⟨⟨rfl, by decide, by decide, fun a h => ?_⟩, _, rfl⟩
  have h : a < 1 := h
  have : a = 0 := by omega
  subst this
  decide

theorem witness_FaultLeavesOnlyByClose : (faulty [] .framingOverflow).isOpen = true ∧ (faulty [] .framingOverflow).rx.fault ≠ .none ∧
    (∃ t, exec (.close 0) (two (faulty [] .framingOverflow) shut) = .next t) ∧
    ∃ t, exec (.deliver 0 [1#8]) (two (faulty [] .framingOverflow) shut) = .next t := ⟨by decide, by decide, ⟨_, rfl⟩, _, rfl⟩

theorem witness_OnReadHandsOver : (two ready shut).devices[0]? = some ready ∧ ready.isOpen = true ∧ ready.rx.fault = .none ∧
    2 ≤ ready.rx.acc.toNat ∧ ready.rx.acc.toNat ≤ 256 ∧ ready.rx.acc.toNat - 2 = (ready.rx.rbuf.get 1).toNat ∧
    Answers ready.env.onRead ready.fresh (answer 0#32 []) [] key0 ∧ (answer 0#32 []).calls = [] := by decide

/-- A handler that closes its device, for the DELIVER of a payload's last byte, of 256 bytes, and for the row alone. -/
theorem witness_CloseInsideOnReadRefused :
    let a := answer 0#32 [.close 0]
    let d := answering (holding [6#8, 1#8]) { kind with onRead := [a] }
    (two d shut).devices[0]? = some d ∧ d.isOpen = true ∧ d.rx.fault = .none ∧ d.rx.rbuf.wf ∧
      Answers d.env.onRead d.fresh a [] key0 ∧ .close 0 ∈ a.calls ∧ a.calls = .close 0 :: [] ∧
      d.rx.acc.toNat + [0x11#8].length - 2 = ((d.append [0x11#8]).rx.rbuf.get 1).toNat ∧
      (holding []).rx.acc.toNat + (7#8 :: 0xFE#8 :: zeros 254).length = 256 ∧
      256 - 2 = (((holding []).append (7#8 :: 0xFE#8 :: zeros 254)).rx.rbuf.get 1).toNat ∧
      2 ≤ ready.rx.acc.toNat ∧ ready.rx.acc.toNat - 2 = (ready.rx.rbuf.get 1).toNat := by decide +kernel

/-- Both forms of SEND, with data, inside the DELIVER of a payload's last byte; and the row alone. -/
theorem witness_SendInsideOnRead :
    let a := answer 0#32 [.send 0 .atomic 8#8 1#16 [9#8]]
    let b := answer 0#32 [.send 0 .start 8#8 1#16 [9#8]]
    let d := answering (holding [6#8, 1#8]) { kind with onRead := [a, b] }
    (two d shut).devices[0]? = some d ∧ d.isOpen = true ∧ d.rx.fault = .none ∧ d.rx.rbuf.wf ∧ d.tx.busy = false ∧
      Answers d.env.onRead d.fresh a [b] key0 ∧ a.calls = [.send 0 .atomic 8#8 1#16 [9#8]] ∧
      Answers [b] key0 b [] key0 ∧ b.calls = [.send 0 .start 8#8 1#16 [9#8]] ∧ (1#16).toNat ≤ [9#8].length ∧
      d.rx.acc.toNat + [0x11#8].length - 2 = ((d.append [0x11#8]).rx.rbuf.get 1).toNat ∧
      2 ≤ ready.rx.acc.toNat + ([] : List Byte).length ∧ ready.rx.acc.toNat - 2 = (ready.rx.rbuf.get 1).toNat := by decide

theorem witness_SetReadSizeRequests : (holding [6#8]).isOpen = true ∧ (holding [6#8]).rx.fault = .none ∧
    (holding [6#8]).rx.acc.toNat < 2 ∧ 2 ≤ half.rx.acc.toNat ∧ half.rx.acc.toNat - 2 < (half.rx.rbuf.get 1).toNat := by decide

theorem witness_FrameIsHandedOver : (two (holding []) shut).devices[0]? = some (holding []) ∧ (holding []).isOpen = true ∧
    (holding []).rx.fault = .none ∧ (holding []).rx.acc = 0#9 ∧ (holding []).rx.rbuf.wf ∧ (zeros 254).length ≤ 254 ∧
    Answers (holding []).env.onRead (holding []).fresh (answer 0#32 []) [] key0 :=
  ⟨by decide, by decide, by decide, by decide, by decide, by rw [zeros_length], by decide⟩

theorem witness_ReservedFrameOverflows : (holding []).isOpen = true ∧ (holding []).rx.fault = .none ∧ (holding []).rx.acc = 0#9 ∧
    (holding []).rx.rbuf.wf ∧ (zeros 255).length = 255 :=
  ⟨by decide, by decide, by decide, by decide, by rw [zeros_length]⟩

theorem witness_FaultedDeviceTakesNoFrame : (two (faulty [] .packetOverrun) shut).devices[0]? = some (faulty [] .packetOverrun) ∧
    (faulty [] .packetOverrun).isOpen = true ∧ (faulty [] .packetOverrun).rx.fault ≠ .none := by decide

/-- T6: two writes. T5: one. -/
theorem witness_SendAllAccepted : (holding []).isOpen = true ∧ (holding []).tx.busy = false ∧
    (255#16).toNat ≤ (zeros 255).length ∧
    [WriteAnswer.accepted, .accepted] = List.replicate (max 1 (((255#16).toNat + 253) / 254)) .accepted ++ [] ∧
    kind.txWrite = List.replicate (max 1 (((254#16).toNat + 253) / 254)) .accepted ++ [] :=
  ⟨by decide, by decide, by rw [zeros_length]; decide, by decide, by decide⟩

/-- T13: the second of three. T14: the first. -/
theorem witness_SendAbortsOnFailure : (holding []).isOpen = true ∧ (holding []).tx.busy = false ∧
    (600#16).toNat ≤ (zeros 600).length ∧ 1 < max 1 (((600#16).toNat + 253) / 254) ∧
    [WriteAnswer.accepted, .failure 0] = List.replicate 1 .accepted ++ .failure 0 :: [] ∧
    [WriteAnswer.failure 0] = List.replicate 0 .accepted ++ .failure 0 :: [] :=
  ⟨by decide, by decide, by rw [zeros_length]; decide, by decide, by decide, by decide⟩

theorem witness_SendCompletes : (two (holding []) shut).devices[0]? = some (holding []) ∧ (holding []).isOpen = true ∧
    (holding []).tx.busy = false ∧ (1#16).toNat ≤ [0#8].length := by decide

/-- T1, and T15's failed write. -/
theorem witness_ZeroLengthSend : (two (holding []) shut).devices[0]? = some (holding []) ∧ (holding []).isOpen = true ∧
    (holding []).tx.busy = false ∧ WriteAnswers (holding []).env.txWrite (holding []).fresh .accepted [] key0 ∧
    WriteAnswers [.failure 0] key0 (.failure 0) [] key0 := by decide

theorem witness_ChunksAreTheData : 2 ≤ [0#8, 1#8].length := by decide

theorem witness_SendStart : (two (holding []) shut).devices[0]? = some (holding []) ∧ (holding []).isOpen = true ∧
    (holding []).tx.busy = false ∧ (2#16).toNat ≤ [0#8, 1#8].length := by decide

/-- A failed write; the last chunk, of 254 bytes; a chunk with one byte more to come. -/
theorem witness_TxWriteWritesChunk :
    (two sending shut).devices[0]? = some sending ∧ sending.tx.busy = true ∧ sending.SenderSound ∧
    WriteAnswers sending.env.txWrite sending.fresh .accepted [] key0 ∧ WriteAnswers [.failure 3] key0 (.failure 3) [] key0 ∧
    254 < sending.tx.rem.toNat ∧
    ((holding []).startSend 7#8 254#16 (zeros 254)).SenderSound ∧
    ((holding []).startSend 7#8 254#16 (zeros 254)).tx.rem.toNat ≤ 254 ∧
    254 < ((holding []).startSend 7#8 255#16 (zeros 255)).tx.rem.toNat := by decide +kernel

theorem witness_StepwiseSendAgrees : (two (holding []) shut).devices[0]? = some (holding []) ∧ (holding []).isOpen = true ∧
    (holding []).tx.busy = false ∧ (600#16).toNat ≤ (zeros 600).length :=
  ⟨by decide, by decide, by decide, by rw [zeros_length]; decide⟩

theorem witness_OnlyFramesAreWritten :
    ∃ t e, exec (.send 0 .atomic 7#8 0#16 []) (two (holding []) shut) = .next t ∧ t.devices[0]? = some e := ⟨_, _, rfl, rfl⟩

theorem witness_OpenSucceeds : (two shut shut).devices[0]? = some shut ∧ shut.isOpen = false ∧
    Taken shut.env.tOpen (Config.freeTOpen shut.fresh) shut.fresh (some 9#32) [] key0 ∧
    Taken shut.env.alloc (Config.freeAlloc key0) key0 true [] key0 ∧ Taken shut.env.install (Config.freeInstall key0) key0 true [] key0 := by decide

theorem witness_OpenNeedsBothHooks : (two shut shut).devices[0]? = some shut ∧ shut.isOpen = false ∧ (true && false) = false := by
  decide

/-- The three failures. -/
theorem witness_OpenFailures : shut.isOpen = false ∧ Taken [none] (Config.freeTOpen key0) key0 none [] key0 ∧
    Taken shut.env.tOpen (Config.freeTOpen shut.fresh) shut.fresh (some 9#32) [] key0 ∧
    Taken [false] (Config.freeAlloc key0) key0 false [] key0 ∧ Taken [true] (Config.freeAlloc key0) key0 true [] key0 ∧
    Taken [false] (Config.freeInstall key0) key0 false [] key0 := by decide

theorem witness_CloseClosesDevice : (two half shut).devices[0]? = some half ∧ half.isOpen = true := by decide

theorem witness_ReopenClearsFault : (faulty [] .packetOverrun).isOpen = true ∧
    (faulty [] .packetOverrun).env.tOpen = some 9#32 :: [] ∧ (faulty [] .packetOverrun).env.alloc = true :: [] ∧
    (faulty [] .packetOverrun).env.install = true :: [] := by decide

theorem witness_WriteCompletePassesThrough : (two half shut).devices[0]? = some half ∧ half.isOpen = true ∧
    Answers half.env.onWriteComplete half.fresh (answer 0#32 []) [] key0 ∧ (answer 0#32 []).calls = [] ∧
    Instr.onWriteComplete 0 5#32 = .onWriteComplete 0 5#32 := by decide

theorem witness_TransportClosePassesThrough : (two half shut).devices[0]? = some half ∧ half.isOpen = true ∧
    Answers half.env.onClose half.fresh (answer 0#32 []) [] key0 ∧ (answer 0#32 []).calls = [] ∧
    Instr.onClose 0 = .onClose 0 := by decide

theorem witness_CloseInsideOnClose :
    let d := answering half { kind with onClose := [answer 0#32 [.close 0]] }
    (two d shut).devices[0]? = some d ∧ d.isOpen = true ∧
      d.env.onClose = [{ status := 0#32, calls := [.close 0] }] := by decide

theorem witness_PassThroughsRunHandlerInside : (two half shut).devices[0]? = some half ∧ half.isOpen = true ∧
    Answers half.env.onWriteComplete half.fresh (answer 0#32 []) [] key0 ∧ Answers half.env.onClose half.fresh (answer 0#32 []) [] key0 ∧
    ∃ u e, runCalls none (answer 0#32 []).calls (two half shut) = .next u ∧ u.devices[0]? = some e :=
  ⟨by decide, by decide, by decide, by decide, _, _, rfl, rfl⟩

theorem witness_TOpenAsksTransport : (two shut shut).devices[0]? = some shut ∧ shut.isOpen = false ∧
    Taken shut.env.tOpen (Config.freeTOpen shut.fresh) shut.fresh (some 9#32) [] key0 := by decide

theorem witness_TCloseTellsTransport : (two half shut).devices[1]? = some shut := by decide

/-- L5; OPEN that succeeds; a DELIVER. -/
theorem witness_RegistryMembership : (∃ t, exec (.close 0) (two half half) = .next t) ∧
    (∃ t, exec (.openDevice 1 true true 0#32 0#32 0#32) (two half shut) = .next t) ∧
    (∀ d ∈ (two half shut).devices, d.CallsSendOnly) ∧ (∃ t, exec (.deliver 0 []) (two half shut) = .next t) ∧
    instrDevice (.deliver 0 []) = 0 := by
  refine ⟨⟨_, rfl⟩, ⟨_, rfl⟩, ?_, ⟨_, rfl⟩, rfl⟩
  intro d hd a ha c hc
  simp only [two, List.mem_cons, List.not_mem_nil, or_false] at hd
  rcases hd with rfl | rfl <;>
    (simp [holding, shut, kind, answer] at ha; subst ha; simp at hc)

theorem witness_OtherDevicesUntouched : instrDevice (.deliver 0 []) = 0 ∧ half.CallsOnly 0 ∧
    ∃ t, exec (.deliver 0 []) (two half shut) = .next t := ⟨by decide, by decide, _, rfl⟩

theorem witness_DatapathsIndependent : half.QuietReads ∧
    (∃ t e, exec (.send 0 .atomic 7#8 0#16 []) (two half shut) = .next t ∧ t.devices[0]? = some e) ∧
    ∃ t e, exec (.deliver 0 []) (two half shut) = .next t ∧ t.devices[0]? = some e := ⟨by decide, ⟨_, _, rfl, rfl⟩, _, _, rfl, rfl⟩

end Sys2Proof.Tests
end

section
/-! Fetch and step: what one step does with the request in front. -/

namespace Sys2Proof.Machine

theorem fetch_of_inbox_cons {s : State} {r : Request} {rest : List Request} (hinbox : s.inbox = r :: rest) :
    fetch s = some (r, { s with inbox := rest }) := by
  simp only [fetch, hinbox]

theorem step_of_decode_ok {s t : State} {r : Request} {i : Instr} (hfetch : fetch s = some (r, t))
    (hdecode : decode r = .ok i) : step s = exec i t := by
  simp only [step, hfetch, hdecode]

/-- Settles O5: fetching takes the request in front off the inbox, and what it decodes to runs on the state that is left. -/
theorem stepRunsDecoded : Obligations.StepRunsDecoded := by
  intro s r rest i hinbox hdecode
  exact step_of_decode_ok (fetch_of_inbox_cons hinbox) hdecode

end Sys2Proof.Machine
end

section
/-! The invariant of the machine is kept by every step. While a handler runs inside ON_READ the device that reads is not at rest: the packet
still lies in its buffer (R77). The invariant is therefore split in what holds of every device at every moment and the rest state of R16,
which is suspended for that one device until its ON_READ is finished. -/

namespace Sys2Proof.Machine

/-! ## The invariant of a device -/

/-- What holds of a device at every moment, also inside an operation: all of the invariant but the rest state. -/
def Device.Sound (d : Device) : Prop := d.rx.rbuf.wf ∧ d.rx.acc.toNat ≤ 256 ∧ d.SenderSound

theorem Device.inv_iff {d : Device} : d.Inv ↔ d.Sound ∧ d.AtRest := by
  unfold Device.Sound
  tauto

/-- Soundness speaks of `open`, `acc`, `RBUF` and the sender's registers alone. -/
theorem Device.Sound.of_registers {d e : Device} (ho : e.isOpen = d.isOpen) (hacc : e.rx.acc = d.rx.acc)
    (hbuf : e.rx.rbuf = d.rx.rbuf) (htx : e.tx = d.tx) (h : d.Sound) : e.Sound := by
  simpa only [Device.Sound, Device.SenderSound, ho, hacc, hbuf, htx] using h

/-- The rest state speaks of `open`, `fault`, `acc` and `RBUF` alone. -/
theorem Device.AtRest.of_registers {d e : Device} (ho : e.isOpen = d.isOpen) (hfault : e.rx.fault = d.rx.fault)
    (hacc : e.rx.acc = d.rx.acc) (hbuf : e.rx.rbuf = d.rx.rbuf) (h : d.AtRest) : e.AtRest := by
  simpa only [Device.AtRest, Device.got, Device.frameLength, ho, hfault, hacc, hbuf] using h

/-- What leaves `open` and both datapaths as they are keeps the invariant. -/
theorem Device.Inv.of_same {d e : Device} (ho : e.isOpen = d.isOpen) (hrx : e.rx = d.rx) (htx : e.tx = d.tx) (h : d.Inv) :
    e.Inv := by
  obtain ⟨hsound, hrest⟩ := Device.inv_iff.mp h
  exact Device.inv_iff.mpr
    ⟨hsound.of_registers ho (by rw [hrx]) (by rw [hrx]) htx, hrest.of_registers ho (by rw [hrx]) (by rw [hrx]) (by rw [hrx])⟩

/-- A faulted device is in no state of the receive machine that the rest state speaks of. -/
theorem Device.atRest_of_fault {d : Device} (h : d.rx.fault ≠ .none) : d.AtRest := fun _ hf => absurd hf h

theorem Device.atRest_of_closed {d : Device} (h : d.isOpen = false) : d.AtRest := fun ho => by simp [h] at ho

theorem Device.senderSound_of_idle {d : Device} (h : d.tx.busy = false) : d.SenderSound := fun hb => by simp [h] at hb

/-! ## The operations on one device -/

theorem Device.raise_inv {d : Device} {c : Cause} (h : d.Sound) (hc : c ≠ .none) : (d.raise c).Inv :=
  Device.inv_iff.mpr ⟨h.of_registers rfl rfl rfl rfl, Device.atRest_of_fault hc⟩

theorem Device.append_sound {d : Device} {bs : List Byte} (h : d.Sound) (hl : d.rx.acc.toNat + bs.length ≤ 256) :
    ((d.consume bs).append bs).Sound := by
  obtain ⟨hwf, -, hsender⟩ := h
  exact ⟨Memory.putRun_wf hwf hl, (Device.append_acc hl).trans_le hl, hsender⟩

/-- After ON_READ a header is awaited (R77), whatever the buffer held. -/
theorem Device.afterOnRead_inv {d : Device} (h : d.Sound) (r : Status) : (d.afterOnRead r).Inv := by
  obtain ⟨hwf, -, hsender⟩ := h
  exact ⟨hwf, by simp [Device.afterOnRead], fun _ _ => .inl (by simp [Device.afterOnRead]), hsender⟩

theorem Device.madeOnRead_sound {d : Device} (h : d.Sound) : d.madeOnRead.Sound :=
  h.of_registers (by simp [Device.madeOnRead]) (by simp [Device.madeOnRead]) (by simp [Device.madeOnRead])
    (by simp [Device.madeOnRead])

/-- OPEN either leaves `open` and both datapaths as they were, or opens the device with the receive state zeroed and no SEND in
progress (R120, R121, R122). -/
theorem Device.openWith_cases (d : Device) (add remove : Bool) (p b c : Token) :
    ((d.openWith add remove p b c).isOpen = d.isOpen ∧ (d.openWith add remove p b c).rx = d.rx ∧
      (d.openWith add remove p b c).tx = d.tx) ∨
    ((d.openWith add remove p b c).isOpen = true ∧
      (d.openWith add remove p b c).rx = { acc := 0#9, fault := .none, rbuf := [], rxs := [] } ∧
      (d.openWith add remove p b c).tx.busy = false) := by
  unfold Device.openWith
  split
  · unfold Device.openTransport
    split
    · unfold Device.openAllocate
      split
      · unfold Device.openInstall
        split
        · exact .inr ⟨rfl, rfl, rfl⟩
        · exact .inl (by simp [Device.openFails])
      · exact .inl (by simp [Device.openFails])
    · exact .inl (by simp)
  · exact .inl (by simp)

theorem Device.openWith_inv {d : Device} (h : d.Inv) (add remove : Bool) (p b c : Token) :
    (d.openWith add remove p b c).Inv := by
  rcases d.openWith_cases add remove p b c with ⟨ho, hrx, htx⟩ | ⟨-, hrx, hidle⟩
  · exact h.of_same ho hrx htx
  · exact ⟨by simp [hrx, Memory.wf], by simp [hrx], fun _ _ => .inl (by simp [hrx]), Device.senderSound_of_idle hidle⟩

theorem Device.closed_inv (d : Device) : d.closed.Inv := by
  refine ⟨d.callTClose.release_rbuf_wf, ?_, Device.atRest_of_closed rfl, Device.senderSound_of_idle rfl⟩
  have hacc := (Config.freeAcc d.fresh).isLt
  simp only [Device.closed, Device.ret_rx, Device.release_rx, Device.callTClose_fresh, BitVec.toNat_ofNat]
  omega

theorem Device.send_senderSound {d : Device} {form : SendForm} {type : Byte} {count : Count} {data : List Byte}
    (ho : d.isOpen = true) (hidle : d.tx.busy = false) (hc : count.toNat ≤ data.length) :
    (d.send form type count data).SenderSound := by
  cases form with
  | atomic =>
    obtain ⟨txs, htx⟩ := Device.sendChunks_tx type (chunks data count.toNat) d
    exact Device.senderSound_of_idle (by simp [Device.send, htx, hidle])
  | start =>
    have hlt := count.isLt
    exact fun _ => ⟨ho, by simp [Device.send, hc], by simp [Device.send]; omega⟩

/-- The registers of the sender after a packet of `len` bytes, `len` at most `tx_rem` (R110). -/
theorem Device.advanceSend_senderSound {d : Device} {len : Nat} (h : d.SenderSound) (hl : len ≤ d.tx.rem.toNat) :
    (d.advanceSend len).SenderSound := by
  intro hb
  obtain ⟨ho, hsum, hlt⟩ := h hb
  have hlen : (BitVec.ofNat 16 len).toNat = len := by rw [BitVec.toNat_ofNat]; omega
  refine ⟨ho, ?_, hlt⟩
  simp only [Device.advanceSend_tx, BitVec.toNat_add, BitVec.toNat_sub, hlen]
  omega

theorem Device.sendChunk_senderSound {d : Device} (h : d.SenderSound) : d.sendChunk.SenderSound := by
  unfold Device.sendChunk Device.afterChunk
  split
  · exact Device.senderSound_of_idle rfl
  · split
    · exact Device.senderSound_of_idle rfl
    · refine Device.advanceSend_senderSound (fun hb => ?_) ?_
      · simpa using h (by simpa using hb)
      · simp [Device.nextChunkLength]

@[simp] theorem Device.sendChunk_isOpen (d : Device) : d.sendChunk.isOpen = d.isOpen := by
  unfold Device.sendChunk Device.afterChunk
  split
  · simp
  · split <;> simp

@[simp] theorem Device.sendChunk_rx (d : Device) : d.sendChunk.rx = d.rx := by
  unfold Device.sendChunk Device.afterChunk
  split
  · simp
  · split <;> simp

theorem Device.sendChunk_inv {d : Device} (h : d.Inv) : d.sendChunk.Inv := by
  obtain ⟨hwf, hacc, hrest, hsender⟩ := h
  exact ⟨by simpa using hwf, by simpa using hacc,
    hrest.of_registers (by simp) (by simp) (by simp) (by simp), Device.sendChunk_senderSound hsender⟩

/-! ## The operations of a handler -/

theorem callEffect_sound {c : CallerCall} {d : Device} (hr : callRuns c d) (h : d.Sound) : (callEffect c d).Sound := by
  cases c with
  | openDevice dev add remove p b x =>
    obtain ⟨hwf, hacc, hsender⟩ := h
    have hinv : d.Inv := ⟨hwf, hacc, Device.atRest_of_closed hr, hsender⟩
    exact (Device.inv_iff.mp (Device.openWith_inv hinv add remove p b x)).1
  | close dev => exact (Device.inv_iff.mp d.closed_inv).1
  | send dev form type count data =>
    obtain ⟨ho, hidle, hc⟩ := hr
    obtain ⟨hwf, hacc, -⟩ := h
    exact ⟨by simpa [callEffect] using hwf, by simpa [callEffect] using hacc, Device.send_senderSound ho hidle hc⟩

theorem callEffect_atRest {c : CallerCall} {d : Device} (h : d.Inv) : (callEffect c d).AtRest := by
  cases c with
  | openDevice dev add remove p b x => exact (Device.inv_iff.mp (Device.openWith_inv h add remove p b x)).2
  | close dev => exact (Device.inv_iff.mp d.closed_inv).2
  | send dev form type count data =>
    exact (Device.inv_iff.mp h).2.of_registers (by simp [callEffect]) (by simp [callEffect]) (by simp [callEffect])
      (by simp [callEffect])

/-- The invariant while a handler runs: the device whose ON_READ it answers, if any, need not be at rest. -/
def State.InvDuring (reading : Option Nat) (s : State) : Prop :=
  ∀ j d, s.devices[j]? = some d → d.Sound ∧ (reading ≠ some j → d.AtRest)

theorem State.Inv.get {s : State} {k : Nat} {d : Device} (h : s.Inv) (hd : s.devices[k]? = some d) : d.Inv :=
  h d (List.mem_of_getElem? hd)

theorem State.Inv.setDevice {s : State} {d : Device} (k : Nat) (h : s.Inv) (hd : d.Inv) : (s.setDevice k d).Inv := by
  intro e he
  rcases State.setDevice_mem he with he | rfl
  · exact h e he
  · exact hd

theorem State.Inv.invDuring {s : State} (h : s.Inv) (reading : Option Nat) : s.InvDuring reading := by
  intro j d hd
  obtain ⟨hsound, hrest⟩ := Device.inv_iff.mp (h.get hd)
  exact ⟨hsound, fun _ => hrest⟩

theorem State.InvDuring.setDevice {reading : Option Nat} {s : State} {k : Nat} {d : Device} (h : s.InvDuring reading)
    (hsound : d.Sound) (hrest : reading ≠ some k → d.AtRest) : (s.setDevice k d).InvDuring reading := by
  intro j e he
  by_cases hj : j = k
  · subst hj
    cases hs : s.devices[j]? with
    | none => simp [State.setDevice, List.getElem?_eq_none_iff.mp hs] at he
    | some old =>
      rw [State.setDevice_get d hs] at he
      cases he
      exact ⟨hsound, hrest⟩
  · rw [State.setDevice_get_other d s hj] at he
    exact h j e he

theorem runCall_keeps_invDuring {reading : Option Nat} {c : CallerCall} {s t : State} (hs : s.InvDuring reading)
    (h : runCall reading c s = .next t) : t.InvDuring reading := by
  obtain ⟨d, hd, hr, -, rfl⟩ := runCall_eq_next h
  obtain ⟨hsound, hrest⟩ := hs _ d hd
  refine hs.setDevice ((callEffect_sound hr hsound).of_registers rfl rfl rfl rfl) fun hk => ?_
  exact (callEffect_atRest (Device.inv_iff.mpr ⟨hsound, hrest hk⟩)).of_registers rfl rfl rfl rfl

/-- The handler of device `k` keeps the invariant if what the operation does after it puts `k` at rest. -/
theorem runHandler_inv {reading : Option Nat} {calls : List CallerCall} {k : Nat} {finish : Device → Device} {s t : State}
    (hs : s.InvDuring reading) (hk : ∀ j, reading = some j → j = k)
    (hfinish : ∀ e : Device, e.Sound → (reading ≠ some k → e.AtRest) → (finish e).Inv)
    (h : runHandler reading calls k finish s = .next t) : t.Inv := by
  obtain ⟨u, e, hu, he, rfl⟩ := runHandler_eq_next h
  have huInv : u.InvDuring reading :=
    runCalls_keeps (fun _ _ _ _ hv hr => runCall_keeps_invDuring hv hr) hs hu
  obtain ⟨hsound, hrest⟩ := huInv k e he
  have hfin := hfinish e hsound hrest
  intro d hd
  obtain ⟨j, hj⟩ := List.getElem?_of_mem hd
  by_cases hjk : j = k
  · subst hjk
    rw [State.setDevice_get _ he] at hj
    cases hj
    exact hfin
  · rw [State.setDevice_get_other _ _ hjk] at hj
    obtain ⟨hjsound, hjrest⟩ := huInv j d hj
    exact Device.inv_iff.mpr ⟨hjsound, hjrest fun hr => hjk (hk j hr)⟩

/-- A handler outside ON_READ, whose status is the result of the operation. -/
theorem runHandler_none_inv {calls : List CallerCall} {k : Nat} {r : Status} {s t : State} (hs : s.Inv)
    (h : runHandler none calls k (fun e => e.ret r) s = .next t) : t.Inv :=
  runHandler_inv (finish := fun e => e.ret r) (hs.invDuring none) (fun _ hj => by cases hj)
    (fun _ hsound hrest => (Device.inv_iff.mpr ⟨hsound, hrest (by simp)⟩).of_same rfl rfl rfl) h

/-! ## The operations -/

theorem opSend_inv {k : Nat} {form : SendForm} {type : Byte} {count : Count} {data : List Byte} {s t : State} (hs : s.Inv)
    (h : opSend k form type count data s = .next t) : t.Inv := by
  obtain ⟨d, hd, ho, hidle, hc, rfl⟩ := opSend_eq_next h
  have hInv := hs.get hd
  have hr : callRuns (.send k form type count data) d := ⟨ho, hidle, hc⟩
  exact hs.setDevice k
    (Device.inv_iff.mpr ⟨callEffect_sound hr (Device.inv_iff.mp hInv).1,
      callEffect_atRest (c := .send k form type count data) hInv⟩)

theorem opWriteComplete_inv {k : Nat} {n : Token} {s t : State} (hs : s.Inv) (h : opWriteComplete k n s = .next t) :
    t.Inv := by
  obtain ⟨d, hd, -, h⟩ := withOpen_eq_next h
  exact runHandler_none_inv (hs.setDevice k ((hs.get hd).of_same (by simp) (by simp) (by simp))) h

theorem opTransportClose_inv {k : Nat} {s t : State} (hs : s.Inv) (h : opTransportClose k s = .next t) : t.Inv := by
  obtain ⟨d, hd, -, h⟩ := withOpen_eq_next h
  exact runHandler_none_inv (hs.setDevice k ((hs.get hd).of_same (by simp) (by simp) (by simp))) h

/-- The hand-over of a packet, from a device that is not at rest, puts it at rest. -/
theorem handOver_inv {k : Nat} {d : Device} {s t : State} (hs : s.Inv) (hd : d.Sound) (h : handOver k d s = .next t) :
    t.Inv := by
  unfold handOver at h
  split at h
  · cases h
  · refine runHandler_inv ((hs.invDuring (some k)).setDevice (Device.madeOnRead_sound hd) (by simp)) (fun j hj => ?_)
      (fun e hsound _ => Device.afterOnRead_inv hsound _) h
    exact (Option.some.inj hj).symm

theorem afterAppend_inv {k : Nat} {d : Device} {s t : State} (hs : s.Inv) (hd : d.Sound)
    (h : afterAppend k d s = .next t) : t.Inv := by
  have hrests (hrest : d.AtRest) (n : Nat) : ((d.callSetReadSize n).ret Config.ok).Inv :=
    (Device.inv_iff.mpr ⟨hd, hrest⟩).of_same rfl rfl rfl
  unfold afterAppend at h
  split at h
  next hheader => cases h; exact hs.setDevice k (hrests (fun _ _ => .inl hheader) _)
  next =>
    split at h
    next => cases h; exact hs.setDevice k (Device.raise_inv hd (by simp))
    next =>
      split at h
      next hpayload => cases h; exact hs.setDevice k (hrests (fun _ _ => .inr hpayload) _)
      next => exact handOver_inv hs hd h

theorem opDeliver_inv {k : Nat} {bs : List Byte} {s t : State} (hs : s.Inv) (h : opDeliver k bs s = .next t) : t.Inv := by
  obtain ⟨d, hd, -, h⟩ := withOpen_eq_next h
  have hsound := (Device.inv_iff.mp (hs.get hd)).1
  have hconsumed : (d.consume bs).Sound := hsound.of_registers rfl rfl rfl rfl
  split at h
  next hf =>
    cases h
    exact hs.setDevice k (Device.inv_iff.mpr
      ⟨hsound.of_registers rfl rfl rfl rfl, Device.atRest_of_fault (d.faulted_iff.mp hf)⟩)
  next =>
    split at h
    next => cases h; exact hs.setDevice k (Device.raise_inv hconsumed (by simp))
    next hcap => exact afterAppend_inv hs (Device.append_sound hsound (Nat.le_of_not_lt hcap)) h

theorem feed_inv {k fuel : Nat} {bs : List Byte} {s t : State} (hs : s.Inv) (h : feed k fuel bs s = .next t) : t.Inv := by
  induction fuel generalizing bs s with
  | zero => cases h; exact hs
  | succ fuel ih =>
    cases bs with
    | nil => cases h; exact hs
    | cons b bs =>
      obtain ⟨d, -, -, h⟩ := withOpen_eq_next h
      split at h
      · cases h; exact hs
      · obtain ⟨u, hu, h⟩ := andThen_eq_next.mp h
        exact ih (opDeliver_inv hs hu) h

/-- Every instruction keeps the invariant. -/
theorem exec_inv {i : Instr} {s t : State} (hs : s.Inv) (h : exec i s = .next t) : t.Inv := by
  cases i with
  | frame k type value => exact feed_inv hs h
  | frameRsvdL255 k type value => exact feed_inv hs h
  | openDevice k add remove p b x =>
    obtain ⟨d, hd, -, rfl⟩ := opOpen_eq_next h
    exact hs.setDevice k (Device.openWith_inv (hs.get hd) add remove p b x)
  | close k =>
    obtain ⟨d, -, -, rfl⟩ := opClose_eq_next h
    exact hs.setDevice k d.closed_inv
  | deliver k bs => exact opDeliver_inv hs h
  | deliverFail k =>
    obtain ⟨d, hd, -, h⟩ := withOpen_eq_next h
    split at h
    · cases h; exact hs.setDevice k ((hs.get hd).of_same rfl rfl rfl)
    · cases h; exact hs.setDevice k (Device.raise_inv (Device.inv_iff.mp (hs.get hd)).1 (by simp))
  | send k form type count data => exact opSend_inv hs h
  | writeComplete k n => exact opWriteComplete_inv hs h
  | transportClose k => exact opTransportClose_inv hs h
  | onRead k =>
    obtain ⟨d, hd, -, h⟩ := withOpen_eq_next h
    split at h
    · exact handOver_inv hs (Device.inv_iff.mp (hs.get hd)).1 h
    · cases h
  | setReadSize k =>
    obtain ⟨d, hd, -, h⟩ := withOpen_eq_next h
    split at h
    · cases h; exact hs.setDevice k ((hs.get hd).of_same rfl rfl rfl)
    · cases h
  | txWrite k =>
    obtain ⟨d, hd, -, -, -, rfl⟩ := opTxWrite_eq_next h
    exact hs.setDevice k (Device.sendChunk_inv (hs.get hd))
  | onWriteComplete k n => exact opWriteComplete_inv hs h
  | onClose k => exact opTransportClose_inv hs h
  | tOpen k p b =>
    obtain ⟨d, hd, -, h⟩ := withClosed_eq_next h
    cases h
    exact hs.setDevice k ((hs.get hd).of_same (by simp [Device.tOpenAlone]) (by simp [Device.tOpenAlone])
      (by simp [Device.tOpenAlone]))
  | tClose k =>
    obtain ⟨d, hd, h⟩ := withDevice_eq_next h
    cases h
    exact hs.setDevice k ((hs.get hd).of_same rfl rfl rfl)

/-- A step parks, or runs the instruction of the request in front on the state without that request (R7, R87). -/
theorem step_eq_next {s t : State} (h : step s = .next t) :
    t = s ∨ ∃ r rest i, s.inbox = r :: rest ∧ decode r = .ok i ∧ exec i { s with inbox := rest } = .next t := by
  cases hinbox : s.inbox with
  | nil =>
    have hfetch : fetch s = none := by simp only [fetch, hinbox]
    simp only [step, hfetch] at h
    cases h
    exact .inl rfl
  | cons r rest =>
    simp only [step, fetch_of_inbox_cons hinbox] at h
    cases hdecode : decode r with
    | ok i =>
      simp only [hdecode] at h
      exact .inr ⟨r, rest, i, rfl, hdecode, h⟩
    | error e =>
      simp only [hdecode] at h
      cases h

/-- Settles O3, from the invariant of every operation; inside ON_READ it holds with the rest state of the reading device suspended. -/
theorem stepKeepsInvariant : Obligations.StepKeepsInvariant := by
  intro s t hs h
  rcases step_eq_next h with rfl | ⟨r, rest, i, -, -, hexec⟩
  · exact hs
  · exact exec_inv (s := { s with inbox := rest }) hs hexec

/-- Settles O2: every device of the reset state is closed and idle, with an empty buffer. -/
theorem invariantAtReset : Obligations.InvariantAtReset := by
  intro d hd
  have hwf := reset_memory_wf d hd
  obtain ⟨k, -, rfl⟩ := List.mem_map.mp hd
  exact ⟨hwf, by simp [Device.powerOn], Device.atRest_of_closed rfl, Device.senderSound_of_idle rfl⟩

theorem Device.rxState_of_header {d : Device} (ho : d.isOpen = true) (hf : d.rx.fault = .none) (h : d.rx.acc.toNat < 2) :
    d.rxState = .awaitingHeader := by
  simp [Device.rxState, ho, hf, h]

theorem Device.rxState_of_payload {d : Device} (ho : d.isOpen = true) (hf : d.rx.fault = .none) (h : 2 ≤ d.rx.acc.toNat)
    (hg : d.got < d.frameLength) : d.rxState = .awaitingPayload := by
  simp [Device.rxState, ho, hf, Nat.not_lt.mpr h, hg]

/-- Settles O4: the step keeps the invariant, whose rest state fixes the state of the receive machine and `next_read_size`. -/
theorem restStateRanges : Obligations.RestStateRanges := by
  intro s t d hs h hd ho hf
  obtain ⟨-, -, hrest, -⟩ := stepKeepsInvariant s t hs h d hd
  by_cases hheader : d.rx.acc.toNat < 2
  · refine .inl ⟨Device.rxState_of_header ho hf hheader, hheader, ?_⟩
    rw [Device.nextReadSize_header ho hf hheader, BitVec.toNat_ofNat]
    omega
  · have hpayload : d.got < d.frameLength := (hrest ho hf).resolve_left hheader
    have hsize := Device.nextReadSize_payload ho hf (Nat.le_of_not_lt hheader) hpayload.le
    have hstate := Device.rxState_of_payload ho hf (Nat.le_of_not_lt hheader) hpayload
    have hL : (d.rx.rbuf.get 1).toNat < 256 := (d.rx.rbuf.get 1).isLt
    simp only [Device.got, Device.frameLength, Config.hdrSize] at hpayload hsize
    have hneed : d.nextReadSize.toNat = (d.rx.rbuf.get 1).toNat - (d.rx.acc.toNat - 2) := by
      rw [hsize, BitVec.toNat_ofNat]
      omega
    refine .inr ⟨hstate, by omega, by omega, fun hfull => BitVec.eq_of_toNat_eq ?_, hneed, by omega, by omega⟩
    simp only [BitVec.toNat_ofNat, Nat.reducePow, Nat.reduceMod]
    omega

end Sys2Proof.Machine
end

section
/-! OPEN on a closed device that gets everything it asks for, and OPEN after CLOSE (R147). -/

namespace Sys2Proof.Machine

/-! ## The three answers OPEN takes, one lemma for each line of R120 that asks for one -/

/-- Line 6: the installation succeeds. -/
theorem Device.openInstall_granted {d : Device} {h p b c : Token} {installs : List Bool} {f : FreeKey}
    (hinstall : Taken d.env.install (Config.freeInstall d.fresh) d.fresh true installs f) :
    d.openInstall h p b c =
      Device.openSucceeds { d with env := { d.env with install := installs }, fresh := f } h p b c := by
  simp [Device.openInstall, Device.takeInstall_of hinstall]

/-- Line 4: the device state is allocated. -/
theorem Device.openAllocate_granted {d : Device} {h p b c : Token} {allocs : List Bool} {f : FreeKey}
    (halloc : Taken d.env.alloc (Config.freeAlloc d.fresh) d.fresh true allocs f) :
    d.openAllocate h p b c =
      Device.openInstall { d with env := { d.env with alloc := allocs }, fresh := f } h p b c := by
  simp [Device.openAllocate, Device.takeAlloc_of halloc]

/-- Line 3: the transport answers with a handle. -/
theorem Device.openTransport_granted {d : Device} {h p b c : Token} {handles : List (Option Token)} {f : FreeKey}
    (htransport : Taken d.env.tOpen (Config.freeTOpen d.fresh) d.fresh (some h) handles f) :
    d.openTransport p b c =
      Device.openAllocate
        { d with trace := d.trace ++ [.tOpen p b (some h)], env := { d.env with tOpen := handles }, fresh := f } h p b c := by
  simp [Device.openTransport, Device.callTOpen, Device.takeTOpen_of htransport, Device.record]

theorem Device.openWith_granted {d : Device} {p b c h : Token} {handles : List (Option Token)} {allocs installs : List Bool}
    {f1 f2 f3 : FreeKey} (htransport : Taken d.env.tOpen (Config.freeTOpen d.fresh) d.fresh (some h) handles f1)
    (halloc : Taken d.env.alloc (Config.freeAlloc f1) f1 true allocs f2)
    (hinstall : Taken d.env.install (Config.freeInstall f2) f2 true installs f3) :
    d.openWith true true p b c =
      Device.openSucceeds
        { d with trace := d.trace ++ [.tOpen p b (some h)]
                 env := { d.env with tOpen := handles, alloc := allocs, install := installs }
                 fresh := f3 } h p b c :=
  calc d.openWith true true p b c = d.openTransport p b c := rfl
    _ = _ := Device.openTransport_granted htransport
    _ = _ := Device.openAllocate_granted halloc
    _ = _ := Device.openInstall_granted hinstall

/-- Lines 5 to 10 leave the receive state zeroed (R120). -/
theorem Device.openSucceeds_rx (d : Device) (h p b c : Token) :
    (d.openSucceeds h p b c).rx = { acc := 0#9, fault := .none, rbuf := [], rxs := [] } := rfl

/-- Lines 5 to 10 make one transaction: the request for a header (R120). -/
theorem Device.openSucceeds_trace (d : Device) (h p b c : Token) :
    (d.openSucceeds h p b c).trace = d.trace ++ [.setReadSize 2#8] := rfl

/-- Settles O51: CLOSE leaves the answers to come as they are, so OPEN gets its three and zeroes the receive state. -/
theorem reopenClearsFault : Obligations.ReopenClearsFault := by
  intro s k d p b c h handles allocs installs hd ho htransport halloc hinstall
  have hclosed : (s.setDevice k d.closed).devices[k]? = some d.closed := State.setDevice_get _ hd
  have hopen := Device.openWith_granted (d := d.closed) (p := p) (b := b) (c := c) (.inl ⟨htransport, rfl⟩)
    (.inl ⟨halloc, rfl⟩) (.inl ⟨hinstall, rfl⟩)
  refine ⟨d.closed.openWith true true p b c, ?_, ?_⟩
  · simp only [runAll, exec, execClose, execOpenDevice, opClose_runs hd ho, andThen_next, opOpen_runs hclosed rfl,
      State.setDevice_setDevice]
  · rw [hopen]
    have hheader : ∀ e : Device, (e.openSucceeds h p b c).rx.acc.toNat < 2 := fun _ => by simp [Device.openSucceeds_rx]
    refine ⟨⟨rfl, rfl⟩, Device.rxState_of_header rfl rfl (hheader _), Device.nextReadSize_header rfl rfl (hheader _),
      fun _ => rfl, rfl, ?_, rfl⟩
    simp [Device.openSucceeds_trace, Device.closed]

end Sys2Proof.Machine
end

section
/-! Devices that differ only in what `RBUF` holds at and above `acc` (R23, Safety's `SameButStale`): every operation on one device takes two
such devices to two such devices. Most operations are blind: they neither read nor write the buffer. The rest are the append, the
hand-over of a packet, and OPEN and CLOSE, which forget the buffer. -/

namespace Sys2Proof.Machine

/-! ## Devices that differ in stale bytes -/

/-- The device with another buffer. -/
def Device.withBuffer (d : Device) (m : Memory) : Device := { d with rx := { d.rx with rbuf := m } }

@[simp] theorem Device.withBuffer_isOpen (d : Device) (m : Memory) : (d.withBuffer m).isOpen = d.isOpen := rfl
@[simp] theorem Device.withBuffer_rx (d : Device) (m : Memory) : (d.withBuffer m).rx = { d.rx with rbuf := m } := rfl
@[simp] theorem Device.withBuffer_tx (d : Device) (m : Memory) : (d.withBuffer m).tx = d.tx := rfl
@[simp] theorem Device.withBuffer_binding (d : Device) (m : Memory) : (d.withBuffer m).binding = d.binding := rfl
@[simp] theorem Device.withBuffer_result (d : Device) (m : Memory) : (d.withBuffer m).result = d.result := rfl
@[simp] theorem Device.withBuffer_env (d : Device) (m : Memory) : (d.withBuffer m).env = d.env := rfl

theorem SameButStale.eq_withBuffer {d e : Device} (h : SameButStale d e) : e = d.withBuffer e.rx.rbuf := h.1

@[simp] theorem Device.withBuffer_faulted (d : Device) (m : Memory) : (d.withBuffer m).faulted = d.faulted := rfl

/-- A device in its canonical form differs from itself in nothing. -/
theorem SameButStale.refl {d : Device} (h : d.rx.rbuf.wf) : SameButStale d d := ⟨rfl, h, h, fun _ _ => rfl⟩

theorem SameButStale.of_withBuffer {d : Device} {m : Memory} (hm : m.wf) (hd : d.rx.rbuf.wf)
    (h : ∀ a, a < d.rx.acc.toNat → m.get a = d.rx.rbuf.get a) : SameButStale d (d.withBuffer m) := ⟨rfl, hm, hd, h⟩

/-- An update of a device that neither reads nor writes its buffer, nor writes `acc`. -/
structure Blind (f : Device → Device) : Prop where
  withBuffer : ∀ d m, f (d.withBuffer m) = (f d).withBuffer m
  acc : ∀ d, (f d).rx.acc = d.rx.acc
  rbuf : ∀ d, (f d).rx.rbuf = d.rx.rbuf

theorem Blind.comp {f g : Device → Device} (hg : Blind g) (hf : Blind f) : Blind (fun d => g (f d)) where
  withBuffer d m := by rw [hf.withBuffer, hg.withBuffer]
  acc d := by rw [hg.acc, hf.acc]
  rbuf d := by rw [hg.rbuf, hf.rbuf]

/-- A choice between two blind updates that depends on nothing in the buffer. -/
theorem Blind.ite {f g : Device → Device} {p : Device → Prop} [DecidablePred p] (hp : ∀ d m, p (d.withBuffer m) ↔ p d)
    (hf : Blind f) (hg : Blind g) : Blind (fun d => if p d then f d else g d) where
  withBuffer d m := by
    simp only [hp]
    split
    · exact hf.withBuffer d m
    · exact hg.withBuffer d m
  acc d := by
    split
    · exact hf.acc d
    · exact hg.acc d
  rbuf d := by
    split
    · exact hf.rbuf d
    · exact hg.rbuf d

/-- A blind update takes devices that differ in stale bytes to such devices. -/
theorem Blind.sameButStale {f : Device → Device} (hf : Blind f) {d e : Device} (h : SameButStale d e) :
    SameButStale (f d) (f e) := by
  obtain ⟨he, hewf, hdwf, hget⟩ := h
  rw [he, ← Device.withBuffer, hf.withBuffer]
  refine SameButStale.of_withBuffer hewf (by rwa [hf.rbuf]) fun a ha => ?_
  rw [hf.acc] at ha
  rw [hf.rbuf]
  exact hget a ha

/-! ### The blind updates -/

theorem blind_ret (r : Status) : Blind (Device.ret · r) := ⟨fun _ _ => rfl, fun _ => rfl, fun _ => rfl⟩
theorem blind_noResult : Blind Device.noResult := ⟨fun _ _ => rfl, fun _ => rfl, fun _ => rfl⟩
theorem blind_consume (bs : List Byte) : Blind (Device.consume · bs) := ⟨fun _ _ => rfl, fun _ => rfl, fun _ => rfl⟩
theorem blind_raise (c : Cause) : Blind (Device.raise · c) := ⟨fun _ _ => rfl, fun _ => rfl, fun _ => rfl⟩
theorem blind_record (e : Event) : Blind (Device.record · e) := ⟨fun _ _ => rfl, fun _ => rfl, fun _ => rfl⟩
theorem blind_callSetReadSize (n : Nat) : Blind (Device.callSetReadSize · n) := blind_record _
theorem blind_callTClose : Blind Device.callTClose := blind_record _
theorem blind_startSend (type : Byte) (count : Count) (data : List Byte) : Blind (Device.startSend · type count data) :=
  ⟨fun _ _ => rfl, fun _ => rfl, fun _ => rfl⟩
theorem blind_openFails : Blind Device.openFails := (blind_ret _).comp blind_callTClose

/-! ### Answers are taken whatever the buffer holds -/

@[simp] theorem Device.takeOnRead_withBuffer (d : Device) (m : Memory) :
    (d.withBuffer m).takeOnRead = (d.takeOnRead.1, d.takeOnRead.2.withBuffer m) := by
  simp only [Device.takeOnRead, Device.withBuffer_env]; split <;> rfl

@[simp] theorem Device.takeOnWriteComplete_withBuffer (d : Device) (m : Memory) :
    (d.withBuffer m).takeOnWriteComplete = (d.takeOnWriteComplete.1, d.takeOnWriteComplete.2.withBuffer m) := by
  simp only [Device.takeOnWriteComplete, Device.withBuffer_env]; split <;> rfl

@[simp] theorem Device.takeOnClose_withBuffer (d : Device) (m : Memory) :
    (d.withBuffer m).takeOnClose = (d.takeOnClose.1, d.takeOnClose.2.withBuffer m) := by
  simp only [Device.takeOnClose, Device.withBuffer_env]; split <;> rfl

@[simp] theorem Device.takeTxWrite_withBuffer (d : Device) (m : Memory) :
    (d.withBuffer m).takeTxWrite = (d.takeTxWrite.1, d.takeTxWrite.2.withBuffer m) := by
  simp only [Device.takeTxWrite, Device.withBuffer_env]; split <;> rfl

@[simp] theorem Device.takeTOpen_withBuffer (d : Device) (m : Memory) :
    (d.withBuffer m).takeTOpen = (d.takeTOpen.1, d.takeTOpen.2.withBuffer m) := by
  simp only [Device.takeTOpen, Device.withBuffer_env]; split <;> rfl

@[simp] theorem Device.takeAlloc_withBuffer (d : Device) (m : Memory) :
    (d.withBuffer m).takeAlloc = (d.takeAlloc.1, d.takeAlloc.2.withBuffer m) := by
  simp only [Device.takeAlloc, Device.withBuffer_env]; split <;> rfl

@[simp] theorem Device.takeInstall_withBuffer (d : Device) (m : Memory) :
    (d.withBuffer m).takeInstall = (d.takeInstall.1, d.takeInstall.2.withBuffer m) := by
  simp only [Device.takeInstall, Device.withBuffer_env]; split <;> rfl

@[simp] theorem Device.callTxWrite_withBuffer (d : Device) (m : Memory) (bs : List Byte) :
    (d.withBuffer m).callTxWrite bs = ((d.callTxWrite bs).1, (d.callTxWrite bs).2.withBuffer m) := by
  simp only [Device.callTxWrite, Device.takeTxWrite_withBuffer]; rfl

@[simp] theorem Device.callTOpen_withBuffer (d : Device) (m : Memory) (p b : Token) :
    (d.withBuffer m).callTOpen p b = ((d.callTOpen p b).1, (d.callTOpen p b).2.withBuffer m) := by
  simp only [Device.callTOpen, Device.takeTOpen_withBuffer]; rfl

theorem blind_takeAlloc : Blind (fun d => d.takeAlloc.2) := ⟨by simp, by simp, by simp⟩
theorem blind_takeInstall : Blind (fun d => d.takeInstall.2) := ⟨by simp, by simp, by simp⟩
theorem blind_callTOpen (p b : Token) : Blind (fun d => (d.callTOpen p b).2) := ⟨by simp, by simp, by simp⟩

/-- ON_WRITE_COMPLETE is made with nothing from the buffer. -/
theorem blind_onWriteComplete (n : Token) : Blind (fun d =>
    d.takeOnWriteComplete.2.record (.onWriteComplete d.binding.context n d.takeOnWriteComplete.1.status)) :=
  ⟨fun d m => by simp only [Device.takeOnWriteComplete_withBuffer]; rfl, by simp, by simp⟩

/-- ON_CLOSE is made with nothing from the buffer. -/
theorem blind_onClose : Blind (fun d => d.takeOnClose.2.record (.onClose d.binding.context d.takeOnClose.1.status)) :=
  ⟨fun d m => by simp only [Device.takeOnClose_withBuffer]; rfl, by simp, by simp⟩

theorem blind_tOpenAlone (p b : Token) : Blind (Device.tOpenAlone · p b) :=
  ⟨fun d m => by simp only [Device.tOpenAlone, Device.callTOpen_withBuffer]; rfl, by simp [Device.tOpenAlone],
    by simp [Device.tOpenAlone]⟩

/-! ### The sender does not touch the receive datapath -/

theorem Device.sendChunks_withBuffer (type : Byte) (cs : List (List Byte)) (d : Device) (m : Memory) :
    (d.withBuffer m).sendChunks type cs = (d.sendChunks type cs).withBuffer m := by
  induction cs generalizing d with
  | nil => rfl
  | cons c cs ih =>
    simp only [Device.sendChunks, Device.callTxWrite_withBuffer]
    split
    · exact ih _
    · rfl

theorem blind_send (form : SendForm) (type : Byte) (count : Count) (data : List Byte) :
    Blind (Device.send · form type count data) := by
  cases form with
  | atomic => exact ⟨Device.sendChunks_withBuffer type _, by simp, by simp⟩
  | start => exact blind_noResult.comp (blind_startSend type count data)

theorem blind_endSend : Blind Device.endSend := ⟨fun _ _ => rfl, fun _ => rfl, fun _ => rfl⟩

theorem blind_advanceSend (len : Nat) : Blind (Device.advanceSend · len) := ⟨fun _ _ => rfl, fun _ => rfl, fun _ => rfl⟩

theorem blind_afterChunk (accepted : Bool) (len : Nat) : Blind (Device.afterChunk · accepted len) :=
  .ite (p := fun _ => accepted = false) (fun _ _ => Iff.rfl) ((blind_ret _).comp blind_endSend)
    (.ite (p := fun d => (d.advanceSend len).tx.rem = 0#16) (fun _ _ => Iff.rfl)
      (((blind_ret _).comp blind_endSend).comp (blind_advanceSend len)) (blind_advanceSend len))

theorem blind_sendChunk : Blind Device.sendChunk where
  withBuffer d m := by
    simp only [Device.sendChunk, Device.callTxWrite_withBuffer]
    exact (blind_afterChunk _ _).withBuffer _ m
  acc := by simp
  rbuf := by simp

/-! ### OPEN and CLOSE -/

/-- Lines 5 to 10 of OPEN forget the buffer. -/
theorem SameButStale.openSucceeds {d e : Device} (h : SameButStale d e) (handle p b c : Token) :
    SameButStale (d.openSucceeds handle p b c) (e.openSucceeds handle p b c) := by
  rw [h.eq_withBuffer]
  exact SameButStale.refl (by simp [Device.openSucceeds_rx, Memory.wf])

theorem SameButStale.openInstall {d e : Device} (h : SameButStale d e) (handle p b c : Token) :
    SameButStale (d.openInstall handle p b c) (e.openInstall handle p b c) := by
  have htaken := blind_takeInstall.sameButStale h
  have hanswer : e.takeInstall.1 = d.takeInstall.1 := by rw [h.eq_withBuffer]; simp
  unfold Device.openInstall
  rw [hanswer]
  split
  · exact htaken.openSucceeds handle p b c
  · exact blind_openFails.sameButStale htaken

theorem SameButStale.openAllocate {d e : Device} (h : SameButStale d e) (handle p b c : Token) :
    SameButStale (d.openAllocate handle p b c) (e.openAllocate handle p b c) := by
  have htaken := blind_takeAlloc.sameButStale h
  have hanswer : e.takeAlloc.1 = d.takeAlloc.1 := by rw [h.eq_withBuffer]; simp
  unfold Device.openAllocate
  rw [hanswer]
  split
  · exact htaken.openInstall handle p b c
  · exact blind_openFails.sameButStale htaken

theorem SameButStale.openTransport {d e : Device} (h : SameButStale d e) (p b c : Token) :
    SameButStale (d.openTransport p b c) (e.openTransport p b c) := by
  have htaken := (blind_callTOpen p b).sameButStale h
  have hanswer : (e.callTOpen p b).1 = (d.callTOpen p b).1 := by rw [h.eq_withBuffer]; simp
  unfold Device.openTransport
  rw [hanswer]
  split
  · exact htaken.openAllocate _ p b c
  · exact (blind_ret _).sameButStale htaken

theorem SameButStale.openWith {d e : Device} (h : SameButStale d e) (add remove : Bool) (p b c : Token) :
    SameButStale (d.openWith add remove p b c) (e.openWith add remove p b c) := by
  unfold Device.openWith
  split
  · exact h.openTransport p b c
  · exact (blind_ret _).sameButStale h

/-- CLOSE forgets the buffer. -/
theorem SameButStale.closed {d e : Device} (h : SameButStale d e) : SameButStale d.closed e.closed := by
  rw [h.eq_withBuffer]
  exact SameButStale.refl (Device.closed_inv d).1

/-! ### The receive machine reads below `acc` alone -/

/-- In PacketReady the header and the whole payload are in (R13). -/
theorem Device.complete_of_packetReady {d : Device} (h : d.rxState = .packetReady) :
    2 ≤ d.rx.acc.toNat ∧ d.got = d.frameLength := by
  have ho : d.isOpen = true := by
    by_contra hclosed
    simp [Device.rxState, Bool.eq_false_iff.mpr hclosed] at h
  have hcases := d.rxState_cases ho
  simp only [h, reduceCtorEq, and_false, false_or, or_false, and_true] at hcases
  exact hcases.2

section
variable {d : Device} {m : Memory} (hget : ∀ a, a < d.rx.acc.toNat → m.get a = d.rx.rbuf.get a)
include hget

/-- The length byte is read once the header is in. -/
theorem Device.frameLength_withBuffer (h2 : 2 ≤ d.rx.acc.toNat) : (d.withBuffer m).frameLength = d.frameLength := by
  simp only [Device.frameLength, Device.withBuffer_rx, hget 1 h2]

theorem Device.need_withBuffer : (d.withBuffer m).need = d.need := by
  by_cases h2 : d.rx.acc.toNat < 2
  · simp [Device.need, h2]
  · unfold Device.need
    rw [Device.frameLength_withBuffer hget (Nat.le_of_not_lt h2)]
    rfl

theorem Device.nextReadSize_withBuffer : (d.withBuffer m).nextReadSize = d.nextReadSize := by
  simp only [Device.nextReadSize, Device.need_withBuffer hget]
  rfl

theorem Device.rxState_withBuffer : (d.withBuffer m).rxState = d.rxState := by
  by_cases h2 : d.rx.acc.toNat < 2
  · simp [Device.rxState, h2]
  · unfold Device.rxState
    rw [Device.frameLength_withBuffer hget (Nat.le_of_not_lt h2)]
    rfl

/-- A packet that is all in lies below `acc`. -/
theorem Device.madeOnRead_withBuffer (h2 : 2 ≤ d.rx.acc.toNat) (hgot : d.got = d.frameLength) :
    (d.withBuffer m).madeOnRead = d.madeOnRead.withBuffer m := by
  have hvalue : (d.withBuffer m).packetValue = d.packetValue := by
    simp only [Device.packetValue, Device.frameLength_withBuffer hget h2, Device.withBuffer_rx, Memory.getRun]
    refine List.map_congr_left fun i hi => hget _ ?_
    simp only [Device.got, Config.hdrSize] at hgot
    have hlt := List.mem_range.mp hi
    simp only [Config.hdrSize]
    omega
  simp only [Device.madeOnRead, Device.takeOnRead_withBuffer, hvalue, Device.withBuffer_rx, Device.withBuffer_binding,
    hget 0 (by omega), hget 1 h2]
  rfl

end

/-- The bytes appended are the same in both, and `acc` moves past them. -/
theorem SameButStale.append {d e : Device} (h : SameButStale d e) {bs : List Byte}
    (hl : d.rx.acc.toNat + bs.length ≤ 256) : SameButStale ((d.consume bs).append bs) ((e.consume bs).append bs) := by
  obtain ⟨he, hewf, hdwf, hget⟩ := h
  generalize e.rx.rbuf = m at he hewf hget
  subst he
  refine ⟨rfl, Memory.putRun_wf hewf hl, Memory.putRun_wf hdwf hl, fun a ha => ?_⟩
  rw [Device.append_acc hl] at ha
  simp only [Device.append_rx, Device.consume_rx]
  by_cases hlow : a < d.rx.acc.toNat
  · rw [Memory.get_putRun_other (.inl hlow), Memory.get_putRun_other (.inl hlow), hget a hlow]
  · obtain ⟨i, rfl⟩ := Nat.exists_eq_add_of_le (Nat.le_of_not_lt hlow)
    have hi : i < bs.length := by omega
    rw [Memory.get_putRun_inside hi hewf hl, Memory.get_putRun_inside hi hdwf hl]

theorem SameButStale.madeOnRead {d e : Device} (h : SameButStale d e) (h2 : 2 ≤ d.rx.acc.toNat)
    (hgot : d.got = d.frameLength) : SameButStale d.madeOnRead e.madeOnRead := by
  obtain ⟨he, hewf, hdwf, hget⟩ := h
  have hmade : e.madeOnRead = d.madeOnRead.withBuffer e.rx.rbuf := by
    rw [he, ← Device.withBuffer]
    exact Device.madeOnRead_withBuffer hget h2 hgot
  have hrx : d.madeOnRead.rx = d.rx := by simp [Device.madeOnRead]
  rw [hmade]
  exact SameButStale.of_withBuffer hewf (by rwa [hrx]) (by rwa [hrx])

/-- After ON_READ every byte of the buffer is stale. -/
theorem SameButStale.afterOnRead {d e : Device} (h : SameButStale d e) (r : Status) :
    SameButStale (d.afterOnRead r) (e.afterOnRead r) := by
  obtain ⟨he, hewf, hdwf, -⟩ := h
  rw [he]
  exact ⟨rfl, hewf, hdwf, fun a ha => by simp [Device.afterOnRead] at ha⟩

end Sys2Proof.Machine
end

section
/-! What `RBUF` holds at and above `acc` is never observed (R23). Two machines are twins when they differ in such bytes of device `k` alone.
Every operation is built by andThen, choices, withDevice and setDevice, and each of these takes twins to twins. -/

namespace Sys2Proof.Machine

/-! ## Machines that differ in stale bytes of device `k` -/

/-- The two machines differ in stale bytes of device `k` alone. -/
def Twins (k : Nat) (s s' : State) : Prop :=
  ∃ d d', s.devices[k]? = some d ∧ s' = s.setDevice k d' ∧ SameButStale d d'

/-- What device `j` is in two machines that differ in stale bytes of device `k` alone. -/
def TwinDevice (k j : Nat) (e e' : Device) : Prop := (j = k ∧ SameButStale e e') ∨ (j ≠ k ∧ e' = e)

theorem TwinDevice.map {k j : Nat} {e e' : Device} {f : Device → Device}
    (hf : ∀ d d', SameButStale d d' → SameButStale (f d) (f d')) (h : TwinDevice k j e e') : TwinDevice k j (f e) (f e') := by
  rcases h with ⟨hj, h⟩ | ⟨hj, rfl⟩
  · exact .inl ⟨hj, hf _ _ h⟩
  · exact .inr ⟨hj, rfl⟩

theorem Blind.twinDevice {f : Device → Device} (hf : Blind f) {k j : Nat} {e e' : Device} (h : TwinDevice k j e e') :
    TwinDevice k j (f e) (f e') := h.map fun _ _ => hf.sameButStale

/-- What a twin differs in from its device. -/
theorem TwinDevice.eq_withBuffer {k j : Nat} {e e' : Device} (h : TwinDevice k j e e') :
    ∃ m, e' = e.withBuffer m ∧ ∀ a, a < e.rx.acc.toNat → m.get a = e.rx.rbuf.get a := by
  rcases h with ⟨-, h⟩ | ⟨-, rfl⟩
  · exact ⟨_, h.eq_withBuffer, h.2.2.2⟩
  · exact ⟨_, rfl, fun _ _ => rfl⟩

theorem Twins.get {k j : Nat} {s s' : State} {e : Device} (h : Twins k s s') (he : s.devices[j]? = some e) :
    ∃ e', s'.devices[j]? = some e' ∧ TwinDevice k j e e' := by
  obtain ⟨d, d', hd, rfl, hsame⟩ := h
  by_cases hj : j = k
  · subst hj
    rw [hd] at he
    cases he
    exact ⟨d', State.setDevice_get d' hd, .inl ⟨rfl, hsame⟩⟩
  · exact ⟨e, by rw [State.setDevice_get_other d' s hj, he], .inr ⟨hj, rfl⟩⟩

theorem Twins.setDevice {k j : Nat} {s s' : State} {u u' : Device} (h : Twins k s s') (hu : TwinDevice k j u u') :
    Twins k (s.setDevice j u) (s'.setDevice j u') := by
  obtain ⟨d, d', hd, rfl, hsame⟩ := h
  rcases hu with ⟨rfl, hu⟩ | ⟨hj, rfl⟩
  · exact ⟨u, u', State.setDevice_get u hd, by simp, hu⟩
  · refine ⟨d, d', by rwa [State.setDevice_get_other u' s (Ne.symm hj)], ?_, hsame⟩
    simp only [State.setDevice, State.mk.injEq, and_true]
    exact List.set_comm _ _ (Ne.symm hj)

/-! ## Operations respect twins -/

/-- Where the first result is a next state, the second is a twin of it. -/
def Follows (k : Nat) (r r' : Result) : Prop := ∀ t, r = .next t → ∃ t', r' = .next t' ∧ Twins k t t'

section
variable {k j : Nat} {s s' : State}

theorem Follows.next (h : Twins k s s') : Follows k (.next s) (.next s') := by
  intro t ht
  cases ht
  exact ⟨s', rfl, h⟩

theorem Follows.refused (why : Refusal) (r : Result) : Follows k (.refused why) r := fun _ ht => by cases ht

theorem Follows.fault (why : Fault) (r : Result) : Follows k (.fault why) r := fun _ ht => by cases ht

theorem Follows.andThen {r r' : Result} {f f' : State → Result} (hr : Follows k r r')
    (hf : ∀ u u', Twins k u u' → Follows k (f u) (f' u')) : Follows k (andThen r f) (andThen r' f') := by
  intro t ht
  obtain ⟨u, hu, ht⟩ := andThen_eq_next.mp ht
  obtain ⟨u', hu', htwins⟩ := hr u hu
  obtain ⟨t', ht', h⟩ := hf u u' htwins t ht
  exact ⟨t', andThen_eq_next.mpr ⟨u', hu', ht'⟩, h⟩

/-- The two make the same choice. -/
theorem Follows.ite {p p' : Prop} [Decidable p] [Decidable p'] {a a' b b' : Result} (hp : p' ↔ p)
    (ha : p → Follows k a a') (hb : ¬ p → Follows k b b') : Follows k (if p then a else b) (if p' then a' else b') := by
  by_cases h : p
  · rw [if_pos h, if_pos (hp.mpr h)]
    exact ha h
  · rw [if_neg h, if_neg (mt hp.mp h)]
    exact hb h

section
variable (hs : Twins k s s')
include hs

theorem Follows.setDevice {u u' : Device} (hu : TwinDevice k j u u') :
    Follows k (.next (s.setDevice j u)) (.next (s'.setDevice j u')) := .next (hs.setDevice hu)

theorem Follows.withDevice {f f' : Device → Result} (hf : ∀ e e', TwinDevice k j e e' → Follows k (f e) (f' e')) :
    Follows k (withDevice j s f) (withDevice j s' f') := by
  intro t ht
  obtain ⟨e, he, ht⟩ := withDevice_eq_next ht
  obtain ⟨e', he', htwin⟩ := hs.get he
  rw [withDevice_some he']
  exact hf e e' htwin t ht

theorem Follows.withOpen {f f' : Device → Result} (hf : ∀ e e', TwinDevice k j e e' → Follows k (f e) (f' e')) :
    Follows k (withOpen j s f) (withOpen j s' f') := by
  refine Follows.withDevice hs fun e e' htwin => ?_
  obtain ⟨m, he', -⟩ := htwin.eq_withBuffer
  exact .ite (by rw [he', Device.withBuffer_isOpen]) (fun _ => hf e e' htwin) (fun _ => .refused _ _)

theorem Follows.withClosed {f f' : Device → Result} (hf : ∀ e e', TwinDevice k j e e' → Follows k (f e) (f' e')) :
    Follows k (withClosed j s f) (withClosed j s' f') := by
  refine Follows.withDevice hs fun e e' htwin => ?_
  obtain ⟨m, he', -⟩ := htwin.eq_withBuffer
  exact .ite (by rw [he', Device.withBuffer_isOpen]) (fun _ => .refused _ _) (fun _ => hf e e' htwin)

/-! ### The operations of the caller, and handlers -/

theorem opOpen_follows (add remove : Bool) (p b c : Token) :
    Follows k (opOpen j add remove p b c s) (opOpen j add remove p b c s') :=
  .withClosed hs fun _ _ htwin => .setDevice hs (htwin.map fun _ _ h => h.openWith add remove p b c)

theorem opClose_follows : Follows k (opClose j s) (opClose j s') :=
  .withOpen hs fun _ _ htwin => .setDevice hs (htwin.map fun _ _ h => h.closed)

theorem opSend_follows (form : SendForm) (type : Byte) (count : Count) (data : List Byte) :
    Follows k (opSend j form type count data s) (opSend j form type count data s') := by
  refine .withOpen hs fun e e' htwin => ?_
  obtain ⟨m, he', -⟩ := htwin.eq_withBuffer
  exact .ite (by rw [he', Device.withBuffer_tx]) (fun _ => .refused _ _) fun _ =>
    .ite Iff.rfl (fun _ => .refused _ _) fun _ => .setDevice hs ((blind_send form type count data).twinDevice htwin)

theorem callOperation_follows (c : CallerCall) : Follows k (callOperation c s) (callOperation c s') := by
  cases c with
  | openDevice dev add remove p b x => exact opOpen_follows hs add remove p b x
  | close dev => exact opClose_follows hs
  | send dev form type count data => exact opSend_follows hs form type count data

theorem noteReturn_follows : Follows k (noteReturn j s) (noteReturn j s') := by
  refine .withDevice hs fun e e' htwin => .setDevice hs ?_
  have hresult : e'.result = e.result := by
    obtain ⟨m, he', -⟩ := htwin.eq_withBuffer
    rw [he', Device.withBuffer_result]
  rw [hresult]
  exact (blind_record _).twinDevice htwin

theorem runCall_follows (reading : Option Nat) (c : CallerCall) : Follows k (runCall reading c s) (runCall reading c s') :=
  .ite Iff.rfl (fun _ => .refused _ _) fun _ => (callOperation_follows hs c).andThen fun _ _ h => noteReturn_follows h

omit hs in
theorem runCalls_follows (reading : Option Nat) (cs : List CallerCall) :
    ∀ {s s' : State}, Twins k s s' → Follows k (runCalls reading cs s) (runCalls reading cs s') := by
  induction cs with
  | nil => exact fun hs => .next hs
  | cons c cs ih => exact fun hs => (runCall_follows hs reading c).andThen fun _ _ h => ih h

theorem runHandler_follows (reading : Option Nat) (calls : List CallerCall) {finish : Device → Device}
    (hfinish : ∀ d d', SameButStale d d' → SameButStale (finish d) (finish d')) :
    Follows k (runHandler reading calls j finish s) (runHandler reading calls j finish s') :=
  (runCalls_follows reading calls hs).andThen fun _ _ h => .withDevice h fun _ _ htwin => .setDevice h (htwin.map hfinish)

theorem opWriteComplete_follows (n : Token) : Follows k (opWriteComplete j n s) (opWriteComplete j n s') := by
  refine .withOpen hs fun e e' htwin => ?_
  have hmade := hs.setDevice ((blind_onWriteComplete n).twinDevice htwin)
  have hanswer : e'.takeOnWriteComplete.1 = e.takeOnWriteComplete.1 := by
    obtain ⟨m, he', -⟩ := htwin.eq_withBuffer
    rw [he', Device.takeOnWriteComplete_withBuffer]
  rw [hanswer] at hmade ⊢
  exact runHandler_follows hmade none _ fun _ _ => (blind_ret _).sameButStale

theorem opTransportClose_follows : Follows k (opTransportClose j s) (opTransportClose j s') := by
  refine .withOpen hs fun e e' htwin => ?_
  have hmade := hs.setDevice (blind_onClose.twinDevice htwin)
  have hanswer : e'.takeOnClose.1 = e.takeOnClose.1 := by
    obtain ⟨m, he', -⟩ := htwin.eq_withBuffer
    rw [he', Device.takeOnClose_withBuffer]
  rw [hanswer] at hmade ⊢
  exact runHandler_follows hmade none _ fun _ _ => (blind_ret _).sameButStale

theorem opTxWrite_follows : Follows k (opTxWrite j s) (opTxWrite j s') := by
  refine .withOpen hs fun e e' htwin => ?_
  have hnext := blind_sendChunk.twinDevice htwin
  obtain ⟨m, rfl, -⟩ := htwin.eq_withBuffer
  exact .ite Iff.rfl (fun _ => .refused _ _) fun _ => .ite Iff.rfl (fun _ => .refused _ _) fun _ => .setDevice hs hnext

/-! ### Receiving -/

/-- The hand-over of a packet that is all in. -/
theorem handOver_follows {d d' : Device} (htwin : TwinDevice k j d d') (h2 : 2 ≤ d.rx.acc.toNat)
    (hgot : d.got = d.frameLength) : Follows k (handOver j d s) (handOver j d' s') := by
  have hmade : TwinDevice k j d.madeOnRead d'.madeOnRead := by
    rcases htwin with ⟨hj, h⟩ | ⟨hj, rfl⟩
    · exact .inl ⟨hj, h.madeOnRead h2 hgot⟩
    · exact .inr ⟨hj, rfl⟩
  obtain ⟨m, rfl, hget⟩ := htwin.eq_withBuffer
  refine .ite (by rw [Device.frameLength_withBuffer hget h2]) (fun _ => .fault _ _) fun _ => ?_
  rw [Device.takeOnRead_withBuffer]
  exact runHandler_follows (hs.setDevice hmade) (some j) _ fun _ _ h => h.afterOnRead _

theorem afterAppend_follows {d d' : Device} (htwin : TwinDevice k j d d') :
    Follows k (afterAppend j d s) (afterAppend j d' s') := by
  have hanswers (n : Nat) := hs.setDevice (((blind_ret Config.ok).comp (blind_callSetReadSize n)).twinDevice htwin)
  have hraised := hs.setDevice ((blind_raise .packetOverrun).twinDevice htwin)
  obtain ⟨m, hd', hget⟩ := htwin.eq_withBuffer
  have hacc : d'.rx.acc = d.rx.acc := by rw [hd', Device.withBuffer_rx]
  have hgot : d'.got = d.got := by simp only [Device.got, hacc]
  refine .ite (by rw [hacc]) (fun _ => ?_) fun h2 => ?_
  · rw [hacc]
    exact .next (hanswers _)
  · have hlength : d'.frameLength = d.frameLength := by
      rw [hd']
      exact Device.frameLength_withBuffer hget (Nat.le_of_not_lt h2)
    refine .ite (by rw [hlength, hgot]) (fun _ => .next hraised) fun hle => ?_
    refine .ite (by rw [hlength, hgot]) (fun _ => ?_) fun hge => ?_
    · rw [hlength, hgot]
      exact .next (hanswers _)
    · exact handOver_follows hs htwin (Nat.le_of_not_lt h2) (by omega)

theorem opDeliver_follows (bs : List Byte) : Follows k (opDeliver j bs s) (opDeliver j bs s') := by
  refine .withOpen hs fun e e' htwin => ?_
  obtain ⟨m, he', -⟩ := htwin.eq_withBuffer
  have hacc : e'.rx.acc = e.rx.acc := by rw [he', Device.withBuffer_rx]
  have hfaulted : e'.faulted = e.faulted := by rw [he', Device.withBuffer_faulted]
  refine .ite (by rw [hfaulted]) (fun _ => ?_) fun _ => .ite (by rw [hacc]) (fun _ => ?_) fun hcap => ?_
  · exact .setDevice hs (((blind_ret _).comp (blind_consume bs)).twinDevice htwin)
  · exact .setDevice hs (((blind_raise _).comp (blind_consume bs)).twinDevice htwin)
  · refine afterAppend_follows hs ?_
    rcases htwin with ⟨hj, h⟩ | ⟨hj, rfl⟩
    · exact .inl ⟨hj, h.append (Nat.le_of_not_lt hcap)⟩
    · exact .inr ⟨hj, rfl⟩

omit hs in
theorem feed_follows (fuel : Nat) :
    ∀ {s s' : State} (bs : List Byte), Twins k s s' → Follows k (feed j fuel bs s) (feed j fuel bs s') := by
  induction fuel with
  | zero => exact fun _ hs => .next hs
  | succ fuel ih =>
    intro s s' bs hs
    cases bs with
    | nil => exact .next hs
    | cons b bs =>
      refine .withOpen hs fun e e' htwin => ?_
      obtain ⟨m, rfl, hget⟩ := htwin.eq_withBuffer
      rw [Device.nextReadSize_withBuffer hget]
      exact .ite Iff.rfl (fun _ => .next hs) fun _ => (opDeliver_follows hs _).andThen fun _ _ h => ih _ h

theorem execDeliverFail_follows : Follows k (execDeliverFail j s) (execDeliverFail j s') := by
  refine .withOpen hs fun e e' htwin => ?_
  have herr := hs.setDevice ((blind_ret Config.err).twinDevice htwin)
  have hraised := hs.setDevice ((blind_raise .transportReadFail).twinDevice htwin)
  obtain ⟨m, rfl, -⟩ := htwin.eq_withBuffer
  exact .ite Iff.rfl (fun _ => .next herr) fun _ => .next hraised

theorem execOnRead_follows : Follows k (execOnRead j s) (execOnRead j s') := by
  refine .withOpen hs fun e e' htwin => ?_
  have hstate : e'.rxState = e.rxState := by
    obtain ⟨m, rfl, hget⟩ := htwin.eq_withBuffer
    exact Device.rxState_withBuffer hget
  refine .ite (by rw [hstate]) (fun hready => ?_) fun _ => .refused _ _
  obtain ⟨h2, hgot⟩ := Device.complete_of_packetReady hready
  exact handOver_follows hs htwin h2 hgot

theorem execSetReadSize_follows : Follows k (execSetReadSize j s) (execSetReadSize j s') := by
  refine .withOpen hs fun e e' htwin => ?_
  have hmade := hs.setDevice ((blind_record (.setReadSize e.nextReadSize)).twinDevice htwin)
  obtain ⟨m, rfl, hget⟩ := htwin.eq_withBuffer
  rw [Device.rxState_withBuffer hget, Device.nextReadSize_withBuffer hget]
  exact .ite Iff.rfl (fun _ => .next hmade) fun _ => .refused _ _

theorem exec_follows (i : Instr) : Follows k (exec i s) (exec i s') := by
  cases i with
  | frame j type value => exact feed_follows _ _ hs
  | frameRsvdL255 j type value => exact feed_follows _ _ hs
  | openDevice j add remove p b x => exact opOpen_follows hs add remove p b x
  | close j => exact opClose_follows hs
  | deliver j bs => exact opDeliver_follows hs bs
  | deliverFail j => exact execDeliverFail_follows hs
  | send j form type count data => exact opSend_follows hs form type count data
  | writeComplete j n => exact opWriteComplete_follows hs n
  | transportClose j => exact opTransportClose_follows hs
  | onRead j => exact execOnRead_follows hs
  | setReadSize j => exact execSetReadSize_follows hs
  | txWrite j => exact opTxWrite_follows hs
  | onWriteComplete j n => exact opWriteComplete_follows hs n
  | onClose j => exact opTransportClose_follows hs
  | tOpen j p b => exact .withClosed hs fun _ _ htwin => .setDevice hs ((blind_tOpenAlone p b).twinDevice htwin)
  | tClose j => exact .withDevice hs fun _ _ htwin => .setDevice hs (blind_callTClose.twinDevice htwin)

end
end

/-- Settles O29: every instruction takes twins to twins. -/
theorem staleBytesNeverObserved : Obligations.StaleBytesNeverObserved := by
  intro i s t k d d' hd _ hsame ht
  obtain ⟨t', ht', e, e', he, rfl, hsame'⟩ := exec_follows ⟨d, d', hd, rfl, hsame⟩ i t ht
  exact ⟨e, e', he, ht', hsame'⟩

end Sys2Proof.Machine
end

section
/-! The answers of handlers that a device still holds. Every operation consumes them or leaves them, and adds none (R54), so what is said of
every answer of a device (Safety's `CallsOnly` and `QuietReads`) goes on holding. -/

namespace Sys2Proof.Machine

/-- The handlers' answers that `e` still holds are among those of `d`. -/
structure HandlersFrom (d e : Device) : Prop where
  onRead : e.env.onRead ⊆ d.env.onRead
  onWriteComplete : e.env.onWriteComplete ⊆ d.env.onWriteComplete
  onClose : e.env.onClose ⊆ d.env.onClose

theorem HandlersFrom.trans {d e f : Device} (h : HandlersFrom d e) (h' : HandlersFrom e f) : HandlersFrom d f :=
  ⟨List.Subset.trans h'.onRead h.onRead, List.Subset.trans h'.onWriteComplete h.onWriteComplete,
    List.Subset.trans h'.onClose h.onClose⟩

theorem HandlersFrom.of_ports {d e : Device} (hread : e.env.onRead = d.env.onRead)
    (hwrite : e.env.onWriteComplete = d.env.onWriteComplete) (hclose : e.env.onClose = d.env.onClose) : HandlersFrom d e :=
  ⟨by simp [hread], by simp [hwrite], by simp [hclose]⟩

theorem HandlersFrom.of_env {d e : Device} (h : e.env = d.env) : HandlersFrom d e := .of_ports (by rw [h]) (by rw [h]) (by rw [h])

theorem HandlersFrom.callsOnly {d e : Device} {k : Nat} (h : HandlersFrom d e) (hd : d.CallsOnly k) : e.CallsOnly k := by
  obtain ⟨hread, hwrite, hclose⟩ := hd
  exact ⟨fun a ha => hread a (h.onRead ha), fun a ha => hwrite a (h.onWriteComplete ha), fun a ha => hclose a (h.onClose ha)⟩

theorem HandlersFrom.quietReads {d e : Device} (h : HandlersFrom d e) (hd : d.QuietReads) : e.QuietReads :=
  fun a ha => hd a (h.onRead ha)

/-! ## Taking an answer -/

section
variable (d : Device)

theorem handlersFrom_takeOnRead : HandlersFrom d d.takeOnRead.2 := by
  unfold Device.takeOnRead
  split
  next h => exact ⟨by simp [h], by simp, by simp⟩
  next => exact .of_env rfl

theorem handlersFrom_takeOnWriteComplete : HandlersFrom d d.takeOnWriteComplete.2 := by
  unfold Device.takeOnWriteComplete
  split
  next h => exact ⟨by simp, by simp [h], by simp⟩
  next => exact .of_env rfl

theorem handlersFrom_takeOnClose : HandlersFrom d d.takeOnClose.2 := by
  unfold Device.takeOnClose
  split
  next h => exact ⟨by simp, by simp, by simp [h]⟩
  next => exact .of_env rfl

theorem handlersFrom_callTxWrite (bs : List Byte) : HandlersFrom d (d.callTxWrite bs).2 := by
  rw [d.callTxWrite_spec bs]
  exact .of_ports rfl rfl rfl

theorem handlersFrom_callTOpen (p b : Token) : HandlersFrom d (d.callTOpen p b).2 := by
  unfold Device.callTOpen Device.takeTOpen
  split <;> exact .of_ports rfl rfl rfl

theorem handlersFrom_takeAlloc : HandlersFrom d d.takeAlloc.2 := by
  unfold Device.takeAlloc
  split <;> exact .of_ports rfl rfl rfl

theorem handlersFrom_takeInstall : HandlersFrom d d.takeInstall.2 := by
  unfold Device.takeInstall
  split <;> exact .of_ports rfl rfl rfl

/-- The answer taken is one of the port's list, or that of a handler that invokes nothing. -/
theorem Device.takeOnRead_calls : d.takeOnRead.1 ∈ d.env.onRead ∨ d.takeOnRead.1.calls = [] := by
  unfold Device.takeOnRead
  split
  next h => exact .inl (by simp [h])
  next => exact .inr rfl

theorem Device.takeOnWriteComplete_calls :
    d.takeOnWriteComplete.1 ∈ d.env.onWriteComplete ∨ d.takeOnWriteComplete.1.calls = [] := by
  unfold Device.takeOnWriteComplete
  split
  next h => exact .inl (by simp [h])
  next => exact .inr rfl

theorem Device.takeOnClose_calls : d.takeOnClose.1 ∈ d.env.onClose ∨ d.takeOnClose.1.calls = [] := by
  unfold Device.takeOnClose
  split
  next h => exact .inl (by simp [h])
  next => exact .inr rfl

/-- Whatever is said of the operations that a port's answers invoke holds of the answer taken from it. -/
theorem calls_of_answer {P : CallerCall → Prop} {port : List HandlerAnswer} {a : HandlerAnswer}
    (ha : a ∈ port ∨ a.calls = []) (hport : ∀ b ∈ port, ∀ c ∈ b.calls, P c) : ∀ c ∈ a.calls, P c := by
  rcases ha with hmem | hnone
  · exact hport a hmem
  · simp [hnone]

/-! ## The operations on one device -/

theorem handlersFrom_sendChunks (type : Byte) (cs : List (List Byte)) : HandlersFrom d (d.sendChunks type cs) := by
  induction cs generalizing d with
  | nil => exact .of_env rfl
  | cons c cs ih =>
    have hwrite := handlersFrom_callTxWrite d (frameBytes type c)
    unfold Device.sendChunks
    split
    · exact hwrite.trans (ih _)
    · exact hwrite.trans (.of_env rfl)

theorem handlersFrom_send (form : SendForm) (type : Byte) (count : Count) (data : List Byte) :
    HandlersFrom d (d.send form type count data) := by
  cases form with
  | atomic => exact handlersFrom_sendChunks d type _
  | start => exact .of_env rfl

theorem handlersFrom_sendChunk : HandlersFrom d d.sendChunk := by
  refine (handlersFrom_callTxWrite d (frameBytes d.tx.type d.nextChunk)).trans (.of_env ?_)
  unfold Device.sendChunk Device.afterChunk
  split
  · rfl
  · split <;> rfl

theorem handlersFrom_openWith (add remove : Bool) (p b c : Token) : HandlersFrom d (d.openWith add remove p b c) := by
  unfold Device.openWith
  split
  · refine (handlersFrom_callTOpen d p b).trans ?_
    unfold Device.openTransport
    split
    · refine (handlersFrom_takeAlloc _).trans ?_
      unfold Device.openAllocate
      split
      · refine (handlersFrom_takeInstall _).trans ?_
        unfold Device.openInstall
        split <;> exact .of_env rfl
      · exact .of_env rfl
    · exact .of_env rfl
  · exact .of_env rfl

theorem handlersFrom_callEffect (c : CallerCall) : HandlersFrom d (callEffect c d) := by
  cases c with
  | openDevice dev add remove p b x => exact handlersFrom_openWith d add remove p b x
  | close dev => exact .of_env rfl
  | send dev form type count data => exact handlersFrom_send d form type count data

theorem handlersFrom_madeOnRead : HandlersFrom d d.madeOnRead :=
  (handlersFrom_takeOnRead d).trans (.of_env rfl)

end

end Sys2Proof.Machine
end

section
/-! Devices are independent (R44, R164): an instruction sets its own device and nothing else, and so does whatever the handlers of that
device invoke, as long as they invoke it on that device alone. -/

namespace Sys2Proof.Machine

/-- From `s₀` to `s` nothing but device `k` has changed, and the handlers of device `k` go on invoking operations on `k` alone. -/
structure Confined (k : Nat) (s₀ s : State) : Prop where
  only : OnlyDevice k s₀ s
  calls : ∀ d, s.devices[k]? = some d → d.CallsOnly k

theorem OnlyDevice.trans {k : Nat} {s t u : State} (h : OnlyDevice k s t) (h' : OnlyDevice k t u) : OnlyDevice k s u := by
  obtain ⟨hinbox, hlength, hother⟩ := h
  obtain ⟨hinbox', hlength', hother'⟩ := h'
  exact ⟨hinbox'.trans hinbox, hlength'.trans hlength, fun j hj => (hother' j hj).trans (hother j hj)⟩

section
variable {k : Nat} {s₀ s t : State} (hs : Confined k s₀ s)
include hs

/-- Device `k` changes and holds no new answers of its handlers. -/
theorem Confined.setDevice {d e : Device} (hd : s.devices[k]? = some d) (he : HandlersFrom d e) :
    Confined k s₀ (s.setDevice k e) where
  only := hs.only.trans (s.setDevice_only e k)
  calls e' he' := by
    rw [State.setDevice_get e hd] at he'
    cases he'
    exact he.callsOnly (hs.calls d hd)

theorem runCall_confined {reading : Option Nat} {c : CallerCall} (hc : callDevice c = k)
    (h : runCall reading c s = .next t) : Confined k s₀ t := by
  obtain ⟨d, hd, -, -, rfl⟩ := runCall_eq_next h
  rw [hc] at hd ⊢
  exact hs.setDevice hd ((handlersFrom_callEffect d c).trans (.of_env rfl))

omit hs in
theorem runHandler_confined {reading : Option Nat} {cs : List CallerCall} {finish : Device → Device}
    (h : runHandler reading cs k finish s = .next t) (hs : Confined k s₀ s) (hcs : ∀ c ∈ cs, callDevice c = k)
    (hfinish : ∀ e, (finish e).env = e.env) : Confined k s₀ t := by
  obtain ⟨u, e, hu, he, rfl⟩ := runHandler_eq_next h
  have huConfined : Confined k s₀ u :=
    runCalls_keeps (fun c hc _ _ hv hrun => runCall_confined hv (hcs c hc) hrun) hs hu
  exact huConfined.setDevice he (.of_env (hfinish e))

theorem opWriteComplete_confined {n : Token} (h : opWriteComplete k n s = .next t) : Confined k s₀ t := by
  obtain ⟨d, hd, -, h⟩ := withOpen_eq_next h
  obtain ⟨-, hwrite, -⟩ := hs.calls d hd
  exact runHandler_confined h (hs.setDevice hd ((handlersFrom_takeOnWriteComplete d).trans (.of_env rfl)))
    (calls_of_answer d.takeOnWriteComplete_calls hwrite) fun _ => rfl

theorem opTransportClose_confined (h : opTransportClose k s = .next t) : Confined k s₀ t := by
  obtain ⟨d, hd, -, h⟩ := withOpen_eq_next h
  obtain ⟨-, -, hclose⟩ := hs.calls d hd
  exact runHandler_confined h (hs.setDevice hd ((handlersFrom_takeOnClose d).trans (.of_env rfl)))
    (calls_of_answer d.takeOnClose_calls hclose) fun _ => rfl

/-- The hand-over of a packet by device `k`, which was `d` before the bytes of the packet came in. -/
theorem handOver_confined {d e : Device} (h : handOver k e s = .next t) (hd : s.devices[k]? = some d)
    (he : HandlersFrom d e) : Confined k s₀ t := by
  unfold handOver at h
  split at h
  · cases h
  · obtain ⟨hread, -, -⟩ := he.callsOnly (hs.calls d hd)
    exact runHandler_confined h (hs.setDevice hd (he.trans (handlersFrom_madeOnRead e)))
      (calls_of_answer e.takeOnRead_calls hread) fun _ => rfl

theorem opDeliver_confined {bs : List Byte} (h : opDeliver k bs s = .next t) : Confined k s₀ t := by
  obtain ⟨d, hd, -, h⟩ := withOpen_eq_next h
  split at h
  · cases h; exact hs.setDevice hd (.of_env rfl)
  · split at h
    · cases h; exact hs.setDevice hd (.of_env rfl)
    · unfold afterAppend at h
      split at h
      · cases h; exact hs.setDevice hd (.of_env rfl)
      · split at h
        · cases h; exact hs.setDevice hd (.of_env rfl)
        · split at h
          · cases h; exact hs.setDevice hd (.of_env rfl)
          · exact handOver_confined hs h hd (.of_env rfl)

omit hs in
theorem feed_confined {fuel : Nat} {bs : List Byte} (hs : Confined k s₀ s) (h : feed k fuel bs s = .next t) :
    Confined k s₀ t := by
  induction fuel generalizing bs s with
  | zero => cases h; exact hs
  | succ fuel ih =>
    cases bs with
    | nil => cases h; exact hs
    | cons b bs =>
      obtain ⟨d, -, -, h⟩ := withOpen_eq_next h
      split at h
      · cases h; exact hs
      · obtain ⟨u, hu, h⟩ := andThen_eq_next.mp h
        exact ih (opDeliver_confined hs hu) h

end

theorem exec_confined {i : Instr} {s₀ s t : State} (hs : Confined (instrDevice i) s₀ s) (h : exec i s = .next t) :
    Confined (instrDevice i) s₀ t := by
  cases i with
  | frame k type value => exact feed_confined hs h
  | frameRsvdL255 k type value => exact feed_confined hs h
  | openDevice k add remove p b c =>
    obtain ⟨d, hd, -, rfl⟩ := opOpen_eq_next h
    exact hs.setDevice hd (handlersFrom_openWith d add remove p b c)
  | close k =>
    obtain ⟨d, hd, -, rfl⟩ := opClose_eq_next h
    exact hs.setDevice hd (.of_env rfl)
  | deliver k bs => exact opDeliver_confined hs h
  | deliverFail k =>
    obtain ⟨d, hd, -, h⟩ := withOpen_eq_next h
    split at h
    · cases h; exact hs.setDevice hd (.of_env rfl)
    · cases h; exact hs.setDevice hd (.of_env rfl)
  | send k form type count data =>
    obtain ⟨d, hd, -, -, -, rfl⟩ := opSend_eq_next h
    exact hs.setDevice hd (handlersFrom_send d form type count data)
  | writeComplete k n => exact opWriteComplete_confined hs h
  | transportClose k => exact opTransportClose_confined hs h
  | onRead k =>
    obtain ⟨d, hd, -, h⟩ := withOpen_eq_next h
    split at h
    · exact handOver_confined hs h hd (.of_env rfl)
    · cases h
  | setReadSize k =>
    obtain ⟨d, hd, -, h⟩ := withOpen_eq_next h
    split at h
    · cases h; exact hs.setDevice hd (.of_env rfl)
    · cases h
  | txWrite k =>
    obtain ⟨d, hd, -, -, -, rfl⟩ := opTxWrite_eq_next h
    exact hs.setDevice hd (handlersFrom_sendChunk d)
  | onWriteComplete k n => exact opWriteComplete_confined hs h
  | onClose k => exact opTransportClose_confined hs h
  | tOpen k p b =>
    obtain ⟨d, hd, -, h⟩ := withClosed_eq_next h
    cases h
    exact hs.setDevice hd ((handlersFrom_callTOpen d p b).trans (.of_env rfl))
  | tClose k =>
    obtain ⟨d, hd, h⟩ := withDevice_eq_next h
    cases h
    exact hs.setDevice hd (.of_env rfl)

/-- Settles O59: every instruction keeps its changes on its own device, whose handlers go on invoking operations on it alone. -/
theorem otherDevicesUntouched : Obligations.OtherDevicesUntouched := by
  intro i s t k d hi hd hcalls h
  subst hi
  refine (exec_confined (s₀ := s) ⟨⟨rfl, rfl, fun _ _ => rfl⟩, fun e he => ?_⟩ h).only
  rw [hd] at he
  cases he
  exact hcalls

end Sys2Proof.Machine
end

section
/-! DELIVER and DELIVER_FAIL on a faulted device (R71), and SEND_START (R110). -/

namespace Sys2Proof.Machine

theorem opDeliver_faulted {k : Nat} {bs : List Byte} {s : State} {d : Device} (hd : s.devices[k]? = some d)
    (ho : d.isOpen = true) (hf : d.rx.fault ≠ .none) :
    opDeliver k bs s = .next (s.setDevice k ((d.consume bs).ret Config.err)) := by
  rw [opDeliver_open hd ho, if_pos (d.faulted_iff.mpr hf)]

theorem execDeliverFail_faulted {k : Nat} {s : State} {d : Device} (hd : s.devices[k]? = some d)
    (ho : d.isOpen = true) (hf : d.rx.fault ≠ .none) :
    execDeliverFail k s = .next (s.setDevice k (d.ret Config.err)) := by
  rw [execDeliverFail, withOpen_open hd ho, if_pos (d.faulted_iff.mpr hf)]

/-- Settles O15: the latched fault is the first check that both operations make (R148). -/
theorem faultedDeviceReturnsErr : Obligations.FaultedDeviceReturnsErr := by
  intro s k d bs hd ho hf
  exact ⟨opDeliver_faulted hd ho hf, execDeliverFail_faulted hd ho hf⟩

/-- Settles O43: the start form of SEND runs under SEND's own conditions and writes the sender's registers. -/
theorem sendStart : Obligations.SendStart := by
  intro s k d type count data hd ho hidle hdata
  exact opSend_runs hd ho hidle hdata

end Sys2Proof.Machine
end

section
/-! The receive machine on one frame: which bytes of it lie in the buffer, and what a delivery that stays within the frame does (R73 to R78),
whatever the handler invokes (R183). -/

namespace Sys2Proof.Machine

/-! ## Runs of the buffer -/

theorem Memory.getRun_add (m : Memory) (a n n' : Nat) : m.getRun a (n + n') = m.getRun a n ++ m.getRun (a + n) n' := by
  simp [Memory.getRun, List.range_add, Function.comp_def, Nat.add_assoc]

theorem Memory.getRun_putRun_below {m : Memory} {a n b : Nat} {bs : List Byte} (h : a + n ≤ b) :
    (m.putRun b bs).getRun a n = m.getRun a n :=
  List.map_congr_left fun i hi => Memory.get_putRun_other (.inl (by have := List.mem_range.mp hi; omega))

theorem Memory.getRun_putRun_same {m : Memory} {a : Nat} {bs : List Byte} (hm : m.wf) (hl : a + bs.length ≤ 256) :
    (m.putRun a bs).getRun a bs.length = bs :=
  List.ext_getElem (by simp) fun i _ hi => by simp [Memory.getRun, Memory.get_putRun_inside hi hm hl]

/-! ## What was handed over -/

@[simp] theorem packetsRead_append (es es' : List Event) : packetsRead (es ++ es') = packetsRead es ++ packetsRead es' := by
  induction es with
  | nil => rfl
  | cons e es ih => cases e <;> simp [packetsRead, ih]

theorem Device.sendChunks_packetsRead (type : Byte) (cs : List (List Byte)) (d : Device) :
    packetsRead (d.sendChunks type cs).trace = packetsRead d.trace := by
  induction cs generalizing d with
  | nil => rfl
  | cons c cs ih => unfold Device.sendChunks; split <;> simp [ih, packetsRead]

theorem Device.send_packetsRead (d : Device) (form : SendForm) (type : Byte) (count : Count) (data : List Byte) :
    packetsRead (d.send form type count data).trace = packetsRead d.trace := by
  cases form with
  | atomic => exact Device.sendChunks_packetsRead type _ d
  | start => rfl

/-! ## The bytes of a frame that are in -/

/-- The device is open and unfaulted, and the bytes of the frame that are in are `held`. -/
structure Device.Holds (d : Device) (held : List Byte) : Prop where
  isOpen : d.isOpen = true
  unfaulted : d.rx.fault = .none
  wf : d.rx.rbuf.wf
  run : d.rx.rbuf.getRun 0 d.rx.acc.toNat = held

section
variable {d e : Device} {held : List Byte}

theorem Device.Holds.acc (h : d.Holds held) : d.rx.acc.toNat = held.length := by
  simp [← h.run]

theorem Device.Holds.of_same (h : d.Holds held) (ho : e.isOpen = d.isOpen) (hrx : e.rx = d.rx) : e.Holds held :=
  ⟨ho.trans h.isOpen, by rw [hrx, h.unfaulted], by rw [hrx]; exact h.wf, by rw [hrx, h.run]⟩

theorem Device.Holds.append {bs : List Byte} (h : d.Holds held) (hl : held.length + bs.length ≤ 256) :
    ((d.consume bs).append bs).Holds (held ++ bs) := by
  rw [← h.acc] at hl
  refine ⟨h.isOpen, h.unfaulted, Memory.putRun_wf h.wf hl, ?_⟩
  rw [Device.append_acc hl, Memory.getRun_add, Nat.zero_add]
  exact congrArg₂ (· ++ ·) ((Memory.getRun_putRun_below (by simp)).trans h.run) (Memory.getRun_putRun_same h.wf hl)

theorem Device.Holds.afterOnRead (h : d.Holds held) (r : Status) : (d.afterOnRead r).Holds [] :=
  ⟨h.isOpen, h.unfaulted, h.wf, rfl⟩

/-- Once the header is in, the bytes held are the header and the payload so far. -/
theorem Device.Holds.eq_header_payload (h : d.Holds held) (h2 : 2 ≤ held.length) :
    held = d.rx.rbuf.get 0 :: d.rx.rbuf.get 1 :: d.rx.rbuf.getRun 2 d.got := by
  have hacc : d.rx.acc.toNat = 2 + d.got := by have := h.acc; simp only [Device.got, Config.hdrSize]; omega
  rw [← h.run, hacc, Memory.getRun_add]
  rfl

end

/-! ## A delivery within a frame -/

/-- The packet that a frame carries, as it is handed over (R59). -/
def packetOf (type : Byte) (value : List Byte) : Byte × Byte × List Byte := (type, byteOf value.length, value)

section
variable {d : Device} {type : Byte} {value held rest : List Byte} (h : d.Holds held)
  (hframe : held ++ rest = frameBytes type value) (hvalue : value.length ≤ 254)
include h hframe

omit h in
theorem held_length : held.length + rest.length = 2 + value.length := by
  have hlen := congrArg List.length hframe
  simp only [List.length_append, frameBytes, List.length_cons] at hlen
  omega

include hvalue in
theorem Device.Holds.frameLength (h2 : 2 ≤ held.length) : d.frameLength = value.length := by
  rw [h.eq_header_payload h2] at hframe
  injection hframe with _ htail
  injection htail with hlength _
  rw [Device.frameLength, hlength, byteOf_toNat (by omega)]

include hvalue in
/-- What an honest transport delivers next does not go past the end of the frame (R84). -/
theorem Device.Holds.nextReadSize_le : d.nextReadSize.toNat ≤ rest.length := by
  have hlen := held_length hframe
  have hacc := h.acc
  by_cases h2 : d.rx.acc.toNat < 2
  · rw [Device.nextReadSize_header h.isOpen h.unfaulted h2, BitVec.toNat_ofNat]
    omega
  · have hL := h.frameLength hframe hvalue (by omega)
    have hgot : d.got + 2 = held.length := by simp only [Device.got, Config.hdrSize]; omega
    rw [Device.nextReadSize_payload h.isOpen h.unfaulted (by omega) (by omega), BitVec.toNat_ofNat]
    omega

include hvalue in
/-- While bytes of the frame are missing, the device is at rest (R13, R16). -/
theorem Device.Holds.atRest (hrest : rest ≠ []) : d.AtRest := by
  intro _ _
  have hlen := held_length hframe
  have hacc := h.acc
  have hpos := List.length_pos_iff.mpr hrest
  by_cases h2 : d.rx.acc.toNat < 2
  · exact .inl h2
  · have hL := h.frameLength hframe hvalue (by omega)
    exact .inr (by simp only [Device.got, Config.hdrSize]; omega)

end

/-- With the whole frame in, the packet it carries is handed over, and no byte is missing (R59, R77). -/
theorem Device.Holds.complete {d : Device} {type : Byte} {value : List Byte} (h : d.Holds (frameBytes type value))
    (hvalue : value.length ≤ 254) : 2 ≤ d.rx.acc.toNat ∧ d.got = d.frameLength ∧ d.frameLength = value.length ∧
      packetsRead d.madeOnRead.trace = packetsRead d.trace ++ [packetOf type value] := by
  have hacc : d.rx.acc.toNat = 2 + value.length := by rw [h.acc]; simp [frameBytes]; omega
  have hL := h.frameLength (List.append_nil _) hvalue (by simp [frameBytes])
  have hgot : d.got = d.frameLength := by simp only [Device.got, Config.hdrSize]; omega
  have hheader := h.eq_header_payload (by simp [frameBytes])
  rw [hgot] at hheader
  injection hheader with htype htail
  injection htail with hlength hpayload
  refine ⟨by omega, hgot, hL, ?_⟩
  simp [Device.madeOnRead, packetsRead, packetOf, Device.packetValue, ← htype, ← hlength, ← hpayload]

/-! ## Handlers inside ON_READ -/

/-- What a handler may do to the device that reads: `open` and the receive datapath stay as they are, no packet is handed over. -/
structure Reading (d e : Device) : Prop where
  isOpen : e.isOpen = d.isOpen
  rx : e.rx = d.rx
  packets : packetsRead e.trace = packetsRead d.trace
  handlers : HandlersFrom d e

/-- On an open device that a handler inside ON_READ may not close, the only operation it can run is SEND (R39, R128, R183). -/
theorem callEffect_reading {c : CallerCall} {d : Device} (ho : d.isOpen = true) (hr : callRuns c d)
    (hc : c ≠ .close (callDevice c)) : Reading d (callEffect c d) := by
  cases c with
  | openDevice dev add remove p b x => simp [callRuns, ho] at hr
  | close dev => exact absurd rfl hc
  | send dev form type count data =>
    exact ⟨d.send_isOpen form type count data, d.send_rx form type count data, d.send_packetsRead form type count data,
      handlersFrom_send d form type count data⟩

/-- The handler of ON_READ on device `k`, whatever it invokes. -/
theorem runCalls_reading {k : Nat} {d : Device} {cs : List CallerCall} {s t : State} (hd : s.devices[k]? = some d)
    (ho : d.isOpen = true) (h : runCalls (some k) cs s = .next t) : ∃ e, t.devices[k]? = some e ∧ Reading d e := by
  refine runCalls_keeps (P := fun u => ∃ e, u.devices[k]? = some e ∧ Reading d e) (fun c _ u v hu hv => ?_)
    ⟨d, hd, rfl, rfl, rfl, .of_env rfl⟩ h
  obtain ⟨e, he, hreading⟩ := hu
  obtain ⟨f, hf, hr, hclose, rfl⟩ := runCall_eq_next hv
  by_cases hk : callDevice c = k
  · rw [hk] at hf hclose ⊢
    obtain rfl : e = f := by simpa [he] using hf
    have heffect := callEffect_reading (hreading.isOpen.trans ho) hr fun hc => hclose (hk ▸ hc) rfl
    refine ⟨_, State.setDevice_get _ he, heffect.isOpen.trans hreading.isOpen, heffect.rx.trans hreading.rx, ?_,
      hreading.handlers.trans (heffect.handlers.trans (.of_env rfl))⟩
    simp [packetsRead, heffect.packets, hreading.packets]
  · exact ⟨e, by rw [State.setDevice_get_other _ _ (Ne.symm hk), he], hreading⟩

/-! ## What a run of deliveries comes to -/

/-- A run of device `k`, which is `d` before it: with handlers that invoke nothing it has a step, and if it has one, device `k` is then as
`Q` says and holds no new answers of its handlers. -/
structure Reaches (k : Nat) (d : Device) (Q : Device → Prop) (r : Result) : Prop where
  safe : d.QuietReads → Safe r
  result : ∀ t, r = .next t → ∃ e, t.devices[k]? = some e ∧ HandlersFrom d e ∧ Q e

section
variable {k : Nat} {d : Device} {Q : Device → Prop}

theorem Reaches.next {s : State} (hd : s.devices[k]? = some d) (hQ : Q d) : Reaches k d Q (.next s) :=
  ⟨fun _ => ⟨s, rfl⟩, fun t ht => by cases ht; exact ⟨d, hd, .of_env rfl, hQ⟩⟩

theorem Reaches.setDevice {s : State} {e : Device} (hd : s.devices[k]? = some d) (he : e.env = d.env) (hQ : Q e) :
    Reaches k d Q (.next (s.setDevice k e)) :=
  ⟨fun _ => ⟨_, rfl⟩, fun t ht => by cases ht; exact ⟨e, State.setDevice_get e hd, .of_env he, hQ⟩⟩

theorem Reaches.mono {Q' : Device → Prop} {r : Result} (h : Reaches k d Q r) (hQ : ∀ e, Q e → Q' e) : Reaches k d Q' r where
  safe := h.safe
  result t ht := by
    obtain ⟨e, he, hfrom, hQe⟩ := h.result t ht
    exact ⟨e, he, hfrom, hQ e hQe⟩

/-- What a run comes to depends on the answers to come, and not on what the device was besides. -/
theorem Reaches.of_env {e : Device} {r : Result} (h : Reaches k e Q r) (henv : e.env = d.env) : Reaches k d Q r where
  safe hquiet := h.safe ((HandlersFrom.of_env henv).quietReads hquiet)
  result t ht := by
    obtain ⟨f, hf, hfrom, hQ⟩ := h.result t ht
    exact ⟨f, hf, (HandlersFrom.of_env henv).trans hfrom, hQ⟩

theorem Reaches.andThen {r : Result} {f : State → Result} {Q' : Device → Prop} (hr : Reaches k d Q r)
    (hf : ∀ t e, r = .next t → t.devices[k]? = some e → Q e → Reaches k e Q' (f t)) : Reaches k d Q' (andThen r f) where
  safe hquiet := by
    obtain ⟨t, rfl⟩ := hr.safe hquiet
    obtain ⟨e, he, hfrom, hQ⟩ := hr.result t rfl
    exact (hf t e rfl he hQ).safe (hfrom.quietReads hquiet)
  result u hu := by
    obtain ⟨t, rfl, hu⟩ := andThen_eq_next.mp hu
    obtain ⟨e, he, hfrom, hQ⟩ := hr.result t rfl
    obtain ⟨e', he', hfrom', hQ'⟩ := (hf t e rfl he hQ).result u hu
    exact ⟨e', he', hfrom.trans hfrom', hQ'⟩

end

/-! ## A delivery -/

/-- The bytes `held` of a frame are in, and since the device was `d` the packets `read` have been handed over. -/
def Received (d : Device) (held : List Byte) (read : List (Byte × Byte × List Byte)) (e : Device) : Prop :=
  e.Holds held ∧ packetsRead e.trace = packetsRead d.trace ++ read

section
variable {k : Nat} {s : State} {d : Device} {held bs : List Byte}

/-- A delivery that the capacity check lets pass is appended (R72, R73). -/
theorem Device.Holds.opDeliver_eq (h : d.Holds held) (hd : s.devices[k]? = some d)
    (hl : held.length + bs.length ≤ 256) : opDeliver k bs s = afterAppend k ((d.consume bs).append bs) s := by
  rw [← h.acc] at hl
  rw [opDeliver_open hd h.isOpen, if_neg (by simp [h.unfaulted]), if_neg (by omega)]

/-- A device at rest after the append requests more (R75, R76). -/
theorem afterAppend_atRest (hrest : d.rx.acc.toNat < 2 ∨ d.got < d.frameLength) :
    ∃ n, afterAppend k d s = .next (s.setDevice k ((d.callSetReadSize n).ret Config.ok)) := by
  unfold afterAppend
  split
  next => exact ⟨_, rfl⟩
  next h2 =>
    have hmore := hrest.resolve_left h2
    rw [if_neg (by omega), if_pos hmore]
    exact ⟨_, rfl⟩

/-- A device with the whole frame in hands it over (R77). -/
theorem afterAppend_complete (h2 : 2 ≤ d.rx.acc.toNat) (hgot : d.got = d.frameLength) :
    afterAppend k d s = handOver k d s := by
  rw [afterAppend, if_neg (by simp; omega), if_neg (by omega), if_neg (by omega)]

/-- A delivery that leaves the device at rest hands over nothing. -/
theorem opDeliver_partial (h : d.Holds held) (hd : s.devices[k]? = some d) (hl : held.length + bs.length ≤ 256)
    (hrest : ((d.consume bs).append bs).AtRest) :
    Reaches k d (Received d (held ++ bs) []) (opDeliver k bs s) := by
  have happended := h.append hl
  obtain ⟨n, hn⟩ := afterAppend_atRest (k := k) (s := s) (hrest happended.isOpen happended.unfaulted)
  rw [h.opDeliver_eq hd hl, hn]
  exact .setDevice hd rfl ⟨happended.of_same rfl rfl, by simp [packetsRead]⟩

/-- The hand-over of a whole frame, whatever the handler invokes. -/
theorem handOver_reaches {e : Device} {type : Byte} {value : List Byte} (h : e.Holds (frameBytes type value))
    (hvalue : value.length ≤ 254) (hd : s.devices[k]? = some d) :
    Reaches k e (Received e [] [packetOf type value]) (handOver k e s) := by
  obtain ⟨-, -, hL, hpackets⟩ := h.complete hvalue
  constructor
  · intro hquiet
    refine ⟨_, handOver_quiet hd (by omega) ?_⟩
    exact e.takeOnRead_calls.elim (hquiet _) id
  · intro t ht
    obtain ⟨-, u, f, hu, hf, rfl⟩ := handOver_eq_next ht
    have hmade : e.madeOnRead.Holds (frameBytes type value) :=
      h.of_same (by simp [Device.madeOnRead]) (by simp [Device.madeOnRead])
    obtain ⟨f', hf', hreading⟩ := runCalls_reading (State.setDevice_get _ hd) hmade.isOpen hu
    obtain rfl : f = f' := by simpa [hf] using hf'
    refine ⟨_, State.setDevice_get _ hf, (handlersFrom_madeOnRead e).trans (hreading.handlers.trans (.of_env rfl)),
      (hmade.of_same hreading.isOpen hreading.rx).afterOnRead _, ?_⟩
    simp [Device.afterOnRead, packetsRead, hreading.packets, hpackets]

section
variable {type : Byte} {value rest : List Byte} (hframe : held ++ (bs ++ rest) = frameBytes type value)
  (hvalue : value.length ≤ 254)
include hframe hvalue

/-- A delivery within a frame that leaves bytes of it missing (R75, R76). -/
theorem opDeliver_within_frame (h : d.Holds held) (hd : s.devices[k]? = some d) (hrest : rest ≠ []) :
    Reaches k d (Received d (held ++ bs) []) (opDeliver k bs s) := by
  have hlen := held_length hframe
  rw [List.length_append] at hlen
  rw [← List.append_assoc] at hframe
  exact opDeliver_partial h hd (by omega) ((h.append (by omega)).atRest hframe hvalue hrest)

/-- A delivery that brings the last bytes of a frame (R77, R78). -/
theorem opDeliver_completes_frame (h : d.Holds held) (hd : s.devices[k]? = some d) (hrest : rest = []) :
    Reaches k d (Received d [] [packetOf type value]) (opDeliver k bs s) := by
  subst hrest
  rw [List.append_nil] at hframe
  have hlen : held.length + bs.length ≤ 256 := by
    have := congrArg List.length hframe
    simp only [List.length_append, frameBytes, List.length_cons] at this
    omega
  have happended := h.append hlen
  rw [hframe] at happended
  obtain ⟨h2, hgot, -, -⟩ := happended.complete hvalue
  rw [h.opDeliver_eq hd hlen, afterAppend_complete h2 hgot]
  exact (handOver_reaches happended hvalue hd).of_env rfl

end

end

end Sys2Proof.Machine
end

section
/-! An honest transport (R84): no delivery goes past the end of the frame it is in, so a run of deliveries takes the stream frame by
frame. -/

namespace Sys2Proof.Machine

/-- The bytes of a stream of frames (R50, R84). -/
def streamOf (frames : List (Byte × List Byte)) : List Byte := (frames.map fun f => frameBytes f.1 f.2).flatten

/-- The packets that the frames carry. -/
def packetsOf (frames : List (Byte × List Byte)) : List (Byte × Byte × List Byte) := frames.map fun f => packetOf f.1 f.2

/-- After a run of deliveries of a stream of which `more` is still to come: no fault, and since the device was `d` the packets of the
first frames of the stream have been handed over, in order, or, with no byte to come, of all. -/
def HandedOver (d : Device) (frames : List (Byte × List Byte)) (more : List Byte) (e : Device) : Prop :=
  e.isOpen = true ∧ e.rx.fault = .none ∧ ∃ n, packetsRead e.trace = packetsRead d.trace ++ packetsOf (frames.take n) ∧
    (more = [] → frames.take n = frames)

/-- A packet more was handed over before. -/
theorem HandedOver.cons {d e e' : Device} {f : Byte × List Byte} {frames : List (Byte × List Byte)} {more : List Byte}
    (he : packetsRead e.trace = packetsRead d.trace ++ [packetOf f.1 f.2]) (h : HandedOver e frames more e') :
    HandedOver d (f :: frames) more e' := by
  obtain ⟨ho, hf, n, hread, hall⟩ := h
  exact ⟨ho, hf, n + 1, by simp [hread, he, packetsOf], fun hmore => by simp [hall hmore]⟩

/-- No packet was handed over before. -/
theorem HandedOver.same {d e e' : Device} {frames : List (Byte × List Byte)} {more : List Byte}
    (he : packetsRead e.trace = packetsRead d.trace) (h : HandedOver e frames more e') : HandedOver d frames more e' := by
  obtain ⟨ho, hf, n, hread, hall⟩ := h
  exact ⟨ho, hf, n, by rw [hread, he], hall⟩

/-- Two cuts of one sequence: the part before the earlier cut, and the part between the two. -/
theorem split_of_length_le {xs ys us vs : List Byte} (hle : xs.length ≤ us.length) (heq : xs ++ ys = us ++ vs) :
    ∃ between, us = xs ++ between ∧ ys = between ++ vs := by
  obtain ⟨between, rfl⟩ := List.prefix_of_prefix_length_le ⟨ys, heq⟩ (List.prefix_append us vs) hle
  exact ⟨between, rfl, by simpa using heq⟩

/-- Honest deliveries of a stream of which `held` is in already, less than its first frame. -/
theorem honestRun_reaches {k : Nat} {more : List Byte} (ds : List (List Byte)) {s : State} {d : Device} {held : List Byte}
    {frames : List (Byte × List Byte)} (hd : s.devices[k]? = some d) (h : d.Holds held)
    (hvalues : ∀ f ∈ frames, f.2.length ≤ 254) (hstream : held ++ (ds.flatten ++ more) = streamOf frames)
    (hheld : ∀ f ∈ frames.head?, held.length < (frameBytes f.1 f.2).length) (hhonest : honestRun k ds s) :
    Reaches k d (HandedOver d frames more) (runAll (ds.map (Instr.deliver k)) s) := by
  induction ds generalizing s d held frames with
  | nil =>
    refine .next hd ⟨h.isOpen, h.unfaulted, 0, by simp [packetsOf], fun hmore => ?_⟩
    cases frames with
    | nil => rfl
    | cons f frames =>
      have hlong := hheld f rfl
      simp only [hmore, List.flatten_nil, List.append_nil] at hstream
      simp [hstream, streamOf] at hlong
  | cons bs ds ih =>
    obtain ⟨hsize, hhonest⟩ := hhonest
    simp only [List.flatten_cons, List.append_assoc] at hstream
    cases frames with
    | nil =>
      obtain ⟨rfl, hbs, hds⟩ : held = [] ∧ bs = [] ∧ ds.flatten ++ more = [] := by simpa [streamOf] using hstream
      subst hbs
      have hheader : ((d.consume []).append []).rx.acc.toNat < 2 := by simp [h.acc]
      refine (opDeliver_partial h hd (by simp) fun _ _ => .inl hheader).andThen fun t e ht he hreceived => ?_
      exact (ih he hreceived.1 hvalues hds (by simp) (hhonest t ht)).mono fun _ => .same (by simpa using hreceived.2)
    | cons f frames =>
      have hvalue := hvalues f (by simp)
      obtain ⟨left, hframe, hafter⟩ := split_of_length_le (hheld f rfl).le hstream
      obtain ⟨rest, rfl, hrest⟩ :=
        split_of_length_le ((hsize d hd).trans (h.nextReadSize_le hframe.symm hvalue)) hafter
      by_cases hdone : rest = []
      · refine (opDeliver_completes_frame hframe.symm hvalue h hd hdone).andThen fun t e ht he hreceived => ?_
        subst hdone
        refine (ih he hreceived.1 (fun g hg => hvalues g (by simp [hg])) hrest (fun g _ => ?_) (hhonest t ht)).mono
          fun _ => .cons hreceived.2
        simp [frameBytes]
      · refine (opDeliver_within_frame hframe.symm hvalue h hd hdone).andThen fun t e ht he hreceived => ?_
        refine (ih he hreceived.1 hvalues ?_ (fun g hg => ?_) (hhonest t ht)).mono
          fun _ => .same (by simpa using hreceived.2)
        · rw [hrest, ← List.append_assoc, List.append_assoc held, ← hframe]
          rfl
        · obtain rfl : f = g := by simpa using hg
          have hpos := List.length_pos_iff.mpr hdone
          simp only [hframe, List.length_append]
          omega

/-- Settles O27, by induction on the deliveries: each stays within the frame it is in. -/
theorem honestTransportNeverFaults : Obligations.HonestTransportNeverFaults := by
  intro s k d frames ds more hd ho hf hacc hwf hvalues hstream hhonest
  have hempty : d.Holds [] := ⟨ho, hf, hwf, by rw [hacc]; rfl⟩
  obtain ⟨hsafe, hresult⟩ := honestRun_reaches ds hd hempty hvalues hstream (by simp [frameBytes]) hhonest
  refine ⟨hsafe, fun t ht => ?_⟩
  obtain ⟨e, he, -, hopen, hfault, n, hread, hall⟩ := hresult t ht
  exact ⟨e, he, hopen, hfault, ⟨n, hread⟩, fun hmore => by rw [hread, hall hmore]; rfl⟩

end Sys2Proof.Machine
end

section
/-! Decoding and encoding are inverse to each other. Each decoder of operands is characterised once: the instructions it accepts, and for each
of them the one run of operand bytes. -/

namespace Sys2Proof

/-! ## The wire frame -/

theorem decodeFrame_cons (dev : Nat) (type length : Byte) (value : List Byte) :
    decodeFrame dev (type :: length :: value) =
      if value.length = length.toNat then
        (if length = 0xFF#8 then .ok (.frameRsvdL255 dev type value) else .ok (.frame dev type value))
      else .error .badLength := by
  by_cases hlength : value.length = length.toNat <;> simp [decodeFrame, hlength]

theorem decode_line {dev : Nat} (hdev : dev < 256) (bs : List Byte) : decode ⟨.line dev, bs⟩ = decodeFrame dev bs :=
  if_neg (Nat.not_le.mpr hdev)

/-- Settles O11: on a line below 256 the record is the frame, and the frame decoder tests the length, then the reserved encoding. -/
theorem frameDecodes : Obligations.FrameDecodes := by
  intro dev type length value hdev
  rw [decode_line hdev, decodeFrame_cons]

/-- The length byte of a value of at most 254 bytes is not the reserved one. -/
theorem byteOf_ne_reserved {n : Nat} (h : n ≤ 254) : byteOf n ≠ 0xFF#8 := by
  intro heq
  have := congrArg BitVec.toNat heq
  rw [byteOf_toNat (by omega)] at this
  simp only [BitVec.toNat_ofNat, Nat.reducePow, Nat.reduceMod] at this
  omega

theorem byteOf_of_toNat (b : Byte) : byteOf b.toNat = b := by
  simp [byteOf]

theorem decodeFrame_frameBytes {dev : Nat} {type : Byte} {value : List Byte} (h : value.length ≤ 254) :
    decodeFrame dev (frameBytes type value) = .ok (.frame dev type value) := by
  rw [frameBytes, decodeFrame_cons, if_pos (byteOf_toNat (by omega)).symm, if_neg (byteOf_ne_reserved h)]

theorem decodeFrame_reserved {dev : Nat} {type : Byte} {value : List Byte} (h : value.length = 255) :
    decodeFrame dev (type :: 0xFF#8 :: value) = .ok (.frameRsvdL255 dev type value) := by
  rw [decodeFrame_cons, if_pos (show value.length = (0xFF#8).toNat from h), if_pos rfl]

/-- What the frame decoder accepts. -/
theorem decodeFrame_eq_ok {dev : Nat} {bs : List Byte} {i : Instr} (h : decodeFrame dev bs = .ok i) :
    (∃ type value, value.length ≤ 254 ∧ i = .frame dev type value ∧ bs = frameBytes type value) ∨
    (∃ type value, value.length = 255 ∧ i = .frameRsvdL255 dev type value ∧ bs = type :: 0xFF#8 :: value) := by
  match bs with
  | [] | [_] => cases h
  | type :: length :: value =>
    rw [decodeFrame_cons] at h
    split at h
    next hlength =>
      split at h
      next hreserved =>
        subst hreserved
        cases h
        exact .inr ⟨type, value, hlength, rfl, rfl⟩
      next hvalid =>
        cases h
        have hne : length.toNat ≠ 255 := fun heq => hvalid (BitVec.eq_of_toNat_eq heq)
        have hlt := length.isLt
        exact .inl ⟨type, value, by omega, rfl, by rw [frameBytes, hlength, byteOf_of_toNat]⟩
    next => cases h

/-! ## The operands of an operation -/

theorem decodeBare_eq_ok {i j : Instr} {operands : List Byte} : decodeBare i operands = .ok j ↔ j = i ∧ operands = [] := by
  cases operands <;> simp [decodeBare, eq_comm]

theorem decodeCompletion_eq_ok {mk : Token → Instr} {operands : List Byte} {j : Instr} :
    decodeCompletion mk operands = .ok j ↔ ∃ k, j = mk k ∧ operands = bytes32 k := by
  constructor
  · intro h
    unfold decodeCompletion at h
    split at h
    · cases h
      exact ⟨_, rfl, (bytes32_of_word _ _ _ _).symm⟩
    · cases h
  · rintro ⟨k, rfl, rfl⟩
    simp only [bytes32, decodeCompletion, word32_of_bytes]

theorem decodeTOpen_eq_ok {dev : Nat} {operands : List Byte} {j : Instr} :
    decodeTOpen dev operands = .ok j ↔
      ∃ port baudrate, j = .tOpen dev port baudrate ∧ operands = bytes32 port ++ bytes32 baudrate := by
  constructor
  · intro h
    unfold decodeTOpen at h
    split at h
    · cases h
      exact ⟨_, _, rfl, by simp only [bytes32_of_word, List.cons_append, List.nil_append]⟩
    · cases h
  · rintro ⟨port, baudrate, rfl, rfl⟩
    simp only [bytes32, List.cons_append, List.nil_append, decodeTOpen, word32_of_bytes]

/-- A byte without reserved bits is the byte of the two hooks it says are present. -/
theorem hooksByte_of_bits : ∀ h : Byte, h.toNat < 4 → hooksByte (!h.getLsbD 0) (!h.getLsbD 1) = h := by decide

theorem hooksByte_bits (add remove : Bool) :
    (hooksByte add remove).toNat < 4 ∧ (!(hooksByte add remove).getLsbD 0) = add ∧
      (!(hooksByte add remove).getLsbD 1) = remove := by
  revert add remove; decide

theorem decodeOpen_eq_ok {dev : Nat} {operands : List Byte} {j : Instr} :
    decodeOpen dev operands = .ok j ↔
      ∃ add remove port baudrate context, j = .openDevice dev add remove port baudrate context ∧
        operands = hooksByte add remove :: (bytes32 port ++ bytes32 baudrate ++ bytes32 context) := by
  constructor
  · intro h
    unfold decodeOpen at h
    split at h
    · split at h
      next => cases h
      next hbits =>
        cases h
        refine ⟨_, _, _, _, _, rfl, ?_⟩
        simp only [hooksByte_of_bits _ (Nat.lt_of_not_le hbits), bytes32_of_word, List.cons_append, List.nil_append]
    · cases h
  · rintro ⟨add, remove, port, baudrate, context, rfl, rfl⟩
    obtain ⟨hlt, hadd, hremove⟩ := hooksByte_bits add remove
    simp only [bytes32, List.cons_append, List.nil_append, decodeOpen, if_neg (Nat.not_le.mpr hlt), word32_of_bytes,
      hadd, hremove]

theorem bytes16_length_of_eq {n1 n0 : Byte} {d : List Byte} (h : d.length = (word16 n1 n0).toNat) :
    bytes16 (BitVec.ofNat 16 d.length) = [n1, n0] := by
  rw [h, BitVec.ofNat_toNat, BitVec.setWidth_eq, bytes16_of_word]

theorem decodeDeliver_eq_ok {dev : Nat} {operands : List Byte} {j : Instr} :
    decodeDeliver dev operands = .ok j ↔
      ∃ d, d.length ≤ 511 ∧ j = .deliver dev d ∧ operands = bytes16 (BitVec.ofNat 16 d.length) ++ d := by
  constructor
  · intro h
    unfold decodeDeliver at h
    split at h
    next n1 n0 d =>
      split at h
      next => cases h
      next hlength =>
        split at h
        next => cases h
        next hmax =>
          cases h
          refine ⟨d, Nat.le_of_not_lt hmax, rfl, ?_⟩
          rw [bytes16_length_of_eq (not_not.mp hlength)]
          rfl
    next => cases h
  · rintro ⟨d, hmax, rfl, rfl⟩
    have hlength : (BitVec.ofNat 16 d.length).toNat = d.length := by rw [BitVec.toNat_ofNat]; omega
    simp only [bytes16, List.cons_append, List.nil_append, decodeDeliver, word16_of_bytes, hlength, ne_eq, not_true_eq_false,
      if_false, Config.rxNMax, if_neg (Nat.not_lt.mpr hmax)]

/-- The bytes of SEND's operands after the form and the type, from the two 16-bit values they hold. -/
theorem sendBytes_of_words {c1 c0 n1 n0 : Byte} {data : List Byte} (h : data.length = (word16 n1 n0).toNat) :
    bytes16 (word16 c1 c0) ++ bytes16 (BitVec.ofNat 16 data.length) ++ data = c1 :: c0 :: n1 :: n0 :: data := by
  rw [bytes16_of_word, bytes16_length_of_eq h]
  rfl

theorem decodeSend_eq_ok {dev : Nat} {operands : List Byte} {j : Instr} :
    decodeSend dev operands = .ok j ↔
      ∃ form type count data, data.length < 65536 ∧ j = .send dev form type count data ∧
        operands = sendFormByte form :: type :: (bytes16 count ++ bytes16 (BitVec.ofNat 16 data.length) ++ data) := by
  constructor
  · intro h
    unfold decodeSend at h
    split at h
    next f type c1 c0 n1 n0 data =>
      split at h
      next => cases h
      next hlength =>
        have hdata := not_not.mp hlength
        have hlt : data.length < 65536 := hdata ▸ (word16 n1 n0).isLt
        split at h
        next hatomic =>
          cases h
          exact ⟨.atomic, type, word16 c1 c0, data, hlt, rfl, by rw [sendBytes_of_words hdata, hatomic]; rfl⟩
        next =>
          split at h
          next hstart =>
            cases h
            exact ⟨.start, type, word16 c1 c0, data, hlt, rfl, by rw [sendBytes_of_words hdata, hstart]; rfl⟩
          next => cases h
    next => cases h
  · rintro ⟨form, type, count, data, hlt, rfl, rfl⟩
    have hlength : (BitVec.ofNat 16 data.length).toNat = data.length := by rw [BitVec.toNat_ofNat]; omega
    cases form <;> simp [bytes16, decodeSend, word16_of_bytes, hlength, sendFormByte]

/-! ## Requests -/

/-- The instruction is well formed and `r` is the request that stands for it. -/
def StandsFor (r : Request) (i : Instr) : Prop := i.wellFormed = true ∧ encode i = r

theorem devFits_of_lt {dev : Nat} (h : dev < 256) : devFits dev = true := decide_eq_true h

/-- What the code selects reads the operands of its own record. The cases are numbered as the arms of `decodeCode`. -/
theorem standsFor_of_decodeCode {dev : Nat} (hdev : dev < 256) {code : BitVec 4} {operands : List Byte} {i : Instr}
    (h : decodeCode code dev operands = .ok i) : StandsFor (operationRecord code dev operands) i := by
  have hfits := devFits_of_lt hdev
  have hcode (n : Nat) (hn : code.toNat = n) : code = BitVec.ofNat 4 n := by rw [← hn, BitVec.ofNat_toNat, BitVec.setWidth_eq]
  unfold decodeCode at h
  split at h
  case h_1 hn =>
    obtain ⟨add, remove, port, baudrate, context, rfl, rfl⟩ := decodeOpen_eq_ok.mp h
    exact ⟨hfits, by rw [hcode _ hn]; rfl⟩
  case h_3 hn =>
    obtain ⟨d, hmax, rfl, rfl⟩ := decodeDeliver_eq_ok.mp h
    exact ⟨by simp [Instr.wellFormed, hfits, hmax], by rw [hcode _ hn]; rfl⟩
  case h_5 hn =>
    obtain ⟨form, type, count, data, hlt, rfl, rfl⟩ := decodeSend_eq_ok.mp h
    exact ⟨by simp [Instr.wellFormed, hfits, hlt], by rw [hcode _ hn]; rfl⟩
  case h_6 hn | h_11 hn =>
    obtain ⟨k, rfl, rfl⟩ := decodeCompletion_eq_ok.mp h
    exact ⟨hfits, by rw [hcode _ hn]; rfl⟩
  case h_13 hn =>
    obtain ⟨port, baudrate, rfl, rfl⟩ := decodeTOpen_eq_ok.mp h
    exact ⟨hfits, by rw [hcode _ hn]; rfl⟩
  case h_2 hn | h_4 hn | h_7 hn | h_8 hn | h_9 hn | h_10 hn | h_12 hn | h_14 hn =>
    obtain ⟨rfl, rfl⟩ := decodeBare_eq_ok.mp h
    exact ⟨hfits, by rw [hcode _ hn]; rfl⟩
  case h_15 => cases h

theorem operation_byte : ∀ op : Byte, op.extractLsb' 4 4 = 0#4 → (0#4 ++ op.extractLsb' 0 4 : BitVec 8) = op := by decide

/-- What an accepted record at the operation port is made of. -/
theorem decodeOperation_eq_ok {bs : List Byte} {i : Instr} (h : decodeOperation bs = .ok i) :
    ∃ code dev operands, dev < 256 ∧ ⟨.operation, bs⟩ = operationRecord code dev operands ∧
      decodeCode code dev operands = .ok i := by
  match bs with
  | [] | [_] => cases h
  | op :: dev :: operands =>
    simp only [decodeOperation] at h
    split at h
    next => cases h
    next hreserved =>
      refine ⟨op.extractLsb' 0 4, dev.toNat, operands, dev.isLt, ?_, h⟩
      rw [operationRecord, operation_byte op (not_not.mp hreserved), byteOf_of_toNat]

/-- Settles O9: what each decoder of operands accepts determines the bytes it read. -/
theorem encodeOfDecode : Obligations.EncodeOfDecode := by
  rintro ⟨port, bs⟩ i h
  cases port with
  | operation =>
    obtain ⟨code, dev, operands, hdev, hrecord, hcode⟩ := decodeOperation_eq_ok h
    rw [hrecord]
    exact standsFor_of_decodeCode hdev hcode
  | line dev =>
    by_cases hdev : dev < 256
    · rw [decode_line hdev] at h
      rcases decodeFrame_eq_ok h with ⟨type, value, hlength, rfl, rfl⟩ | ⟨type, value, hlength, rfl, rfl⟩
      · exact ⟨by simp [Instr.wellFormed, devFits_of_lt hdev, hlength], rfl⟩
      · exact ⟨by simp [Instr.wellFormed, devFits_of_lt hdev, hlength], rfl⟩
    · simp [decode, Nat.le_of_not_lt hdev] at h

theorem lt_of_devFits {dev : Nat} (h : devFits dev = true) : dev < 256 := of_decide_eq_true h

/-- Settles O8: the record reaches the decoder of its own operands, which accepts the instruction's bytes. -/
theorem decodeOfEncode : Obligations.DecodeOfEncode := by
  intro i hi
  cases i with
  | frame dev type value =>
    obtain ⟨hfits, hlength⟩ : devFits dev = true ∧ value.length ≤ 254 := by simpa [Instr.wellFormed] using hi
    exact (decode_line (lt_of_devFits hfits) _).trans (decodeFrame_frameBytes hlength)
  | frameRsvdL255 dev type value =>
    obtain ⟨hfits, hlength⟩ : devFits dev = true ∧ value.length = 255 := by simpa [Instr.wellFormed] using hi
    exact (decode_line (lt_of_devFits hfits) _).trans (decodeFrame_reserved hlength)
  | openDevice dev add remove port baudrate context =>
    exact (decode_operationRecord _ _ (lt_of_devFits hi)).trans (decodeOpen_eq_ok.mpr ⟨_, _, _, _, _, rfl, rfl⟩)
  | deliver dev d =>
    obtain ⟨hfits, hmax⟩ : devFits dev = true ∧ d.length ≤ 511 := by simpa [Instr.wellFormed] using hi
    exact (decode_operationRecord _ _ (lt_of_devFits hfits)).trans (decodeDeliver_eq_ok.mpr ⟨d, hmax, rfl, rfl⟩)
  | send dev form type count data =>
    obtain ⟨hfits, hlt⟩ : devFits dev = true ∧ data.length < 65536 := by simpa [Instr.wellFormed] using hi
    exact (decode_operationRecord _ _ (lt_of_devFits hfits)).trans (decodeSend_eq_ok.mpr ⟨_, _, _, _, hlt, rfl, rfl⟩)
  | writeComplete dev k | onWriteComplete dev k =>
    exact (decode_operationRecord _ _ (lt_of_devFits hi)).trans (decodeCompletion_eq_ok.mpr ⟨k, rfl, rfl⟩)
  | tOpen dev port baudrate =>
    exact (decode_operationRecord _ _ (lt_of_devFits hi)).trans (decodeTOpen_eq_ok.mpr ⟨_, _, rfl, rfl⟩)
  | close dev | deliverFail dev | transportClose dev | onRead dev | setReadSize dev | txWrite dev | onClose dev | tClose dev =>
    exact (decode_operationRecord _ _ (lt_of_devFits hi)).trans (decodeBare_eq_ok.mpr ⟨rfl, rfl⟩)

theorem decodeTableWord_of_decode {nbits w : Nat} {i : Instr} (h : decode (tableRequest nbits w) = .ok i) :
    decodeTableWord nbits w = some i := by
  simp only [decodeTableWord, h]

/-- A header word stands for a frame of zero bytes on the line of device 0; every length has its frame (R52, R65). -/
theorem decodeTableWord_header {w : Nat} {type length : Byte} (htype : headerType (BitVec.ofNat 16 w) = type)
    (hlength : headerLength (BitVec.ofNat 16 w) = length) :
    decodeTableWord 16 w = some
      (if length = 0xFF#8 then .frameRsvdL255 0 type (List.replicate length.toNat 0#8)
       else .frame 0 type (List.replicate length.toNat 0#8)) := by
  have hrequest : tableRequest 16 w = ⟨.line 0, type :: length :: List.replicate length.toNat 0#8⟩ := by
    simp [tableRequest, htype, hlength]
  refine decodeTableWord_of_decode ?_
  rw [hrequest, decode_line (by decide), decodeFrame_cons, if_pos List.length_replicate]
  split <;> rfl

/-- Settles O10: a header word by its two bytes, an operation's code by its decoder. -/
theorem tableWordsDecode : Obligations.TableWordsDecode :=
  ⟨decodeTableWord_header rfl rfl, decodeTableWord_header rfl rfl, decodeTableWord_header rfl rfl,
    rfl, rfl, rfl, rfl, rfl, rfl, rfl, rfl⟩

end Sys2Proof
end

section
/-! The transactions an operation makes are added at the end of the device's trace. Every TX_WRITE among them carries one wire frame of at most
254 bytes (R57): this is followed through the updates of a device, then through the operations and handlers that set devices. -/

namespace Sys2Proof.Machine

/-! ## The updates of a device -/

/-- From `d` to `e` the trace has grown, and every TX_WRITE among what was added carries one wire frame. -/
def WritesFrames (d e : Device) : Prop := ∃ made, e.trace = d.trace ++ made ∧ ∀ ev ∈ made, carriesFrame ev

/-- The event is no TX_WRITE. -/
def notTxWrite : Event → Prop
  | .txWrite _ _ => False
  | _ => True

theorem carriesFrame_of_notTxWrite {ev : Event} (h : notTxWrite ev) : carriesFrame ev := by
  rintro bytes accepted rfl
  exact h.elim

theorem carriesFrame_frameBytes {type : Byte} {value : List Byte} (h : value.length ≤ 254) (accepted : Bool) :
    carriesFrame (.txWrite (frameBytes type value) accepted) := by
  intro bytes accepted' heq
  cases heq
  exact ⟨type, value, rfl, h⟩

section
variable {d e f : Device}

theorem WritesFrames.of_same (h : e.trace = d.trace) : WritesFrames d e := ⟨[], by simp [h], by simp⟩

theorem WritesFrames.trans (h : WritesFrames d e) (h' : WritesFrames e f) : WritesFrames d f := by
  obtain ⟨made, hmade, hframes⟩ := h
  obtain ⟨made', hmade', hframes'⟩ := h'
  refine ⟨made ++ made', by rw [hmade', hmade, List.append_assoc], fun ev hev => ?_⟩
  exact (List.mem_append.mp hev).elim (hframes ev) (hframes' ev)

theorem WritesFrames.of_event {ev : Event} (h : e.trace = d.trace ++ [ev]) (hev : carriesFrame ev) : WritesFrames d e :=
  ⟨[ev], h, fun ev' hmem => by rwa [List.mem_singleton.mp hmem]⟩

/-- One transaction that is no TX_WRITE. -/
theorem WritesFrames.of_other {ev : Event} (h : e.trace = d.trace ++ [ev]) (hev : notTxWrite ev) : WritesFrames d e :=
  .of_event h (carriesFrame_of_notTxWrite hev)

theorem WritesFrames.record {ev : Event} (h : WritesFrames d e) (hev : notTxWrite ev) : WritesFrames d (e.record ev) :=
  h.trans (.of_other rfl hev)

end

section
variable (d : Device)

theorem callTxWrite_writesFrames {type : Byte} {value : List Byte} (h : value.length ≤ 254) :
    WritesFrames d (d.callTxWrite (frameBytes type value)).2 :=
  .of_event (d.callTxWrite_trace _) (carriesFrame_frameBytes h _)

theorem readSData_length_le (sdata : List Byte) (a n : Nat) : (readSData sdata a n).length ≤ n := List.length_take_le _ _

/-- No chunk of a SEND is longer than a packet's payload (R102). -/
theorem chunks_length_le {data : List Byte} {count : Nat} {c : List Byte} (h : c ∈ chunks data count) : c.length ≤ 254 := by
  obtain ⟨i, -, rfl⟩ := List.mem_map.mp h
  exact (readSData_length_le _ _ _).trans (Nat.min_le_left _ _)

theorem Device.nextChunk_length_le : d.nextChunk.length ≤ 254 :=
  (readSData_length_le _ _ _).trans (Nat.min_le_left _ _)

theorem sendChunks_writesFrames {type : Byte} {cs : List (List Byte)} (h : ∀ c ∈ cs, c.length ≤ 254) :
    WritesFrames d (d.sendChunks type cs) := by
  induction cs generalizing d with
  | nil => exact .of_same rfl
  | cons c cs ih =>
    have hwrite := callTxWrite_writesFrames d (type := type) (h c (by simp))
    unfold Device.sendChunks
    split
    · exact hwrite.trans (ih _ fun c' hc' => h c' (by simp [hc']))
    · exact hwrite.trans (.of_same rfl)

theorem send_writesFrames (form : SendForm) (type : Byte) (count : Count) (data : List Byte) :
    WritesFrames d (d.send form type count data) := by
  cases form with
  | atomic => exact sendChunks_writesFrames d fun c hc => chunks_length_le hc
  | start => exact .of_same rfl

theorem Device.afterChunk_trace (accepted : Bool) (len : Nat) : (d.afterChunk accepted len).trace = d.trace := by
  unfold Device.afterChunk
  split
  · rfl
  · split <;> rfl

theorem sendChunk_writesFrames : WritesFrames d d.sendChunk :=
  (callTxWrite_writesFrames d d.nextChunk_length_le).trans (.of_same (Device.afterChunk_trace _ _ _))

theorem openWith_writesFrames (add remove : Bool) (p b c : Token) : WritesFrames d (d.openWith add remove p b c) := by
  unfold Device.openWith
  split
  · refine .trans (.of_other (d.callTOpen_trace p b) trivial) ?_
    unfold Device.openTransport
    split
    · refine .trans (.of_same (Device.takeAlloc_trace _)) ?_
      unfold Device.openAllocate
      split
      · refine .trans (.of_same (Device.takeInstall_trace _)) ?_
        unfold Device.openInstall
        split
        · exact .of_other (Device.openSucceeds_trace _ _ _ _ _) trivial
        · exact .of_other rfl trivial
      · exact .of_other rfl trivial
    · exact .of_same rfl
  · exact .of_same rfl

theorem closed_writesFrames : WritesFrames d d.closed := .of_other rfl trivial

theorem callEffect_writesFrames (c : CallerCall) : WritesFrames d (callEffect c d) := by
  cases c with
  | openDevice dev add remove p b x => exact openWith_writesFrames d add remove p b x
  | close dev => exact closed_writesFrames d
  | send dev form type count data => exact send_writesFrames d form type count data

theorem madeOnRead_writesFrames : WritesFrames d d.madeOnRead :=
  .record (.of_same d.takeOnRead_trace) trivial

theorem afterOnRead_writesFrames (r : Status) : WritesFrames d (d.afterOnRead r) := .of_other rfl trivial

end

/-! ## Operations and handlers -/

/-- No device has gone, and what each has done since `s` writes only wire frames. -/
def OnlyFrames (s t : State) : Prop := ∀ (k : Nat) (d : Device), s.devices[k]? = some d →
  ∃ e, t.devices[k]? = some e ∧ WritesFrames d e

theorem OnlyFrames.refl (s : State) : OnlyFrames s s := fun _ d hd => ⟨d, hd, .of_same rfl⟩

theorem OnlyFrames.trans {s t u : State} (h : OnlyFrames s t) (h' : OnlyFrames t u) : OnlyFrames s u := by
  intro k d hd
  obtain ⟨e, he, hde⟩ := h k d hd
  obtain ⟨f, hf, hef⟩ := h' k e he
  exact ⟨f, hf, hde.trans hef⟩

theorem onlyFrames_setDevice {s : State} {k : Nat} {d e : Device} (hd : s.devices[k]? = some d) (h : WritesFrames d e) :
    OnlyFrames s (s.setDevice k e) := by
  intro j d' hd'
  by_cases hj : j = k
  · subst hj
    obtain rfl : d = d' := by simpa [hd] using hd'
    exact ⟨e, State.setDevice_get e hd, h⟩
  · exact ⟨d', by rwa [State.setDevice_get_other e s hj], .of_same rfl⟩

section
variable {k : Nat} {s t : State}

theorem runCall_onlyFrames {reading : Option Nat} {c : CallerCall} (h : runCall reading c s = .next t) : OnlyFrames s t := by
  obtain ⟨d, hd, -, -, rfl⟩ := runCall_eq_next h
  exact onlyFrames_setDevice hd ((callEffect_writesFrames d c).trans (.of_other rfl trivial))

theorem runHandler_onlyFrames {reading : Option Nat} {cs : List CallerCall} {finish : Device → Device}
    (h : runHandler reading cs k finish s = .next t) (hfinish : ∀ e, WritesFrames e (finish e)) : OnlyFrames s t := by
  obtain ⟨u, e, hu, he, rfl⟩ := runHandler_eq_next h
  have hcalls : OnlyFrames s u :=
    runCalls_keeps (fun _ _ _ _ hv hrun => hv.trans (runCall_onlyFrames hrun)) (.refl s) hu
  exact hcalls.trans (onlyFrames_setDevice he (hfinish e))

theorem opWriteComplete_onlyFrames {n : Token} (h : opWriteComplete k n s = .next t) : OnlyFrames s t := by
  obtain ⟨d, hd, -, h⟩ := withOpen_eq_next h
  refine (onlyFrames_setDevice hd ?_).trans (runHandler_onlyFrames h fun _ => .of_same rfl)
  exact .record (.of_same d.takeOnWriteComplete_trace) trivial

theorem opTransportClose_onlyFrames (h : opTransportClose k s = .next t) : OnlyFrames s t := by
  obtain ⟨d, hd, -, h⟩ := withOpen_eq_next h
  refine (onlyFrames_setDevice hd ?_).trans (runHandler_onlyFrames h fun _ => .of_same rfl)
  exact .record (.of_same d.takeOnClose_trace) trivial

/-- The hand-over of a packet by device `k`, which was `d` before the bytes of the packet came in. -/
theorem handOver_onlyFrames {d e : Device} (h : handOver k e s = .next t)
    (hd : s.devices[k]? = some d) (he : e.trace = d.trace) : OnlyFrames s t := by
  unfold handOver at h
  split at h
  · cases h
  · have hmade := onlyFrames_setDevice hd (.trans (.of_same he) (madeOnRead_writesFrames e))
    exact hmade.trans (runHandler_onlyFrames h fun f => afterOnRead_writesFrames f _)

theorem opDeliver_onlyFrames {bs : List Byte} (h : opDeliver k bs s = .next t) : OnlyFrames s t := by
  obtain ⟨d, hd, -, h⟩ := withOpen_eq_next h
  split at h
  next => cases h; exact onlyFrames_setDevice hd (.of_same rfl)
  next =>
    split at h
    next => cases h; exact onlyFrames_setDevice hd (.of_same rfl)
    next =>
      unfold afterAppend at h
      split at h
      next => cases h; exact onlyFrames_setDevice hd (.of_other rfl trivial)
      next =>
        split at h
        next => cases h; exact onlyFrames_setDevice hd (.of_same rfl)
        next =>
          split at h
          next => cases h; exact onlyFrames_setDevice hd (.of_other rfl trivial)
          next => exact handOver_onlyFrames h hd rfl

theorem feed_onlyFrames {fuel : Nat} {bs : List Byte} (h : feed k fuel bs s = .next t) : OnlyFrames s t := by
  induction fuel generalizing bs s with
  | zero => cases h; exact .refl _
  | succ fuel ih =>
    cases bs with
    | nil => cases h; exact .refl _
    | cons b bs =>
      obtain ⟨d, -, -, h⟩ := withOpen_eq_next h
      split at h
      · cases h; exact .refl _
      · obtain ⟨u, hu, h⟩ := andThen_eq_next.mp h
        exact (opDeliver_onlyFrames hu).trans (ih h)

end

theorem exec_onlyFrames {i : Instr} {s t : State} (h : exec i s = .next t) : OnlyFrames s t := by
  cases i with
  | frame k type value => exact feed_onlyFrames h
  | frameRsvdL255 k type value => exact feed_onlyFrames h
  | openDevice k add remove p b c =>
    obtain ⟨d, hd, -, rfl⟩ := opOpen_eq_next h
    exact onlyFrames_setDevice hd (openWith_writesFrames d add remove p b c)
  | close k =>
    obtain ⟨d, hd, -, rfl⟩ := opClose_eq_next h
    exact onlyFrames_setDevice hd (closed_writesFrames d)
  | deliver k bs => exact opDeliver_onlyFrames h
  | deliverFail k =>
    obtain ⟨d, hd, -, h⟩ := withOpen_eq_next h
    split at h
    · cases h; exact onlyFrames_setDevice hd (.of_same rfl)
    · cases h; exact onlyFrames_setDevice hd (.of_same rfl)
  | send k form type count data =>
    obtain ⟨d, hd, -, -, -, rfl⟩ := opSend_eq_next h
    exact onlyFrames_setDevice hd (send_writesFrames d form type count data)
  | writeComplete k n => exact opWriteComplete_onlyFrames h
  | transportClose k => exact opTransportClose_onlyFrames h
  | onRead k =>
    obtain ⟨d, hd, -, h⟩ := withOpen_eq_next h
    split at h
    · exact handOver_onlyFrames h hd rfl
    · cases h
  | setReadSize k =>
    obtain ⟨d, hd, -, h⟩ := withOpen_eq_next h
    split at h
    · cases h; exact onlyFrames_setDevice hd (.of_other rfl trivial)
    · cases h
  | txWrite k =>
    obtain ⟨d, hd, -, -, -, rfl⟩ := opTxWrite_eq_next h
    exact onlyFrames_setDevice hd (sendChunk_writesFrames d)
  | onWriteComplete k n => exact opWriteComplete_onlyFrames h
  | onClose k => exact opTransportClose_onlyFrames h
  | tOpen k p b =>
    obtain ⟨d, hd, -, h⟩ := withClosed_eq_next h
    cases h
    exact onlyFrames_setDevice hd (.of_other (d.callTOpen_trace p b) trivial)
  | tClose k =>
    obtain ⟨d, hd, h⟩ := withDevice_eq_next h
    cases h
    exact onlyFrames_setDevice hd (.of_other rfl trivial)

/-- Settles O46: a chunk of a SEND, and the next chunk of one in progress, are at most 254 bytes, and nothing else is written. -/
theorem onlyFramesAreWritten : Obligations.OnlyFramesAreWritten := by
  intro i s t k d e h hd he
  obtain ⟨e', he', hwrites⟩ := exec_onlyFrames h k d hd
  obtain rfl : e = e' := by simpa [he] using he'
  exact hwrites

end Sys2Proof.Machine
end

section
/-! TX_WRITE, T_OPEN and T_CLOSE, each requested by itself (R54, R57, R110). -/

namespace Sys2Proof.Machine

/-! ## TX_WRITE with a SEND in progress -/

section
variable {d : Device} {a : WriteAnswer} {rest : List WriteAnswer} {f : FreeKey}

theorem Device.callTxWrite_of (h : WriteAnswers d.env.txWrite d.fresh a rest f) (bytes : List Byte) :
    d.callTxWrite bytes =
      (decide (a = .accepted),
        { d with
          tx := { d.tx with txs := d.tx.txs ++ wireBytes bytes a }
          trace := d.trace ++ [.txWrite bytes (decide (a = .accepted))]
          env := { d.env with txWrite := rest }
          fresh := f }) := by
  simp only [Device.callTxWrite, Device.takeTxWrite_of h]
  rfl

/-- The bytes from `tx_off` on that the sender has left are all in `SDATA`. -/
theorem Device.SenderSound.nextChunk_length (h : d.SenderSound) (hb : d.tx.busy = true) :
    d.nextChunk.length = d.nextChunkLength := by
  obtain ⟨-, hsum, -⟩ := h hb
  simp only [Device.nextChunk, readSData, Device.nextChunkLength, List.length_take, List.length_drop]
  omega

/-- `tx_off` and `tx_rem` as numbers, after a packet of at most `tx_rem` bytes. -/
theorem Device.advanceSend_of_le {len : Nat} (h : len ≤ d.tx.rem.toNat) :
    d.advanceSend len = { d with
      tx := { d.tx with off := BitVec.ofNat 16 (d.tx.off.toNat + len), rem := BitVec.ofNat 16 (d.tx.rem.toNat - len) } } := by
  have hlt := d.tx.rem.isLt
  have hrem : d.tx.rem - BitVec.ofNat 16 len = BitVec.ofNat 16 (d.tx.rem.toNat - len) := by
    apply BitVec.eq_of_toNat_eq
    simp only [BitVec.toNat_sub, BitVec.toNat_ofNat]
    omega
  have hoff : d.tx.off + BitVec.ofNat 16 len = BitVec.ofNat 16 (d.tx.off.toNat + len) := by
    rw [BitVec.ofNat_add, BitVec.ofNat_toNat, BitVec.setWidth_eq]
  simp only [Device.advanceSend, hrem, hoff]

/-- The last packet (R110). -/
theorem Device.afterChunk_last {len : Nat} (h : len = d.tx.rem.toNat) :
    d.afterChunk true len = { d with
      tx := { d.tx with busy := false, off := BitVec.ofNat 16 (d.tx.off.toNat + len), rem := 0#16, sdata := [] }
      result := some Config.ok } := by
  have hrem : BitVec.ofNat 16 (d.tx.rem.toNat - len) = 0#16 := by rw [h, Nat.sub_self]
  simp [Device.afterChunk, Device.advanceSend_of_le h.le, hrem, Device.endSend, Device.ret]

/-- A packet with more to come (R110). -/
theorem Device.afterChunk_more {len : Nat} (h : len < d.tx.rem.toNat) :
    d.afterChunk true len = { d with
      tx := { d.tx with off := BitVec.ofNat 16 (d.tx.off.toNat + len), rem := BitVec.ofNat 16 (d.tx.rem.toNat - len) } } := by
  have hne : BitVec.ofNat 16 (d.tx.rem.toNat - len) ≠ 0#16 := by
    intro heq
    have hzero := congrArg BitVec.toNat heq
    have hlt := d.tx.rem.isLt
    simp only [BitVec.toNat_ofNat] at hzero
    omega
  simp [Device.afterChunk, Device.advanceSend_of_le h.le, hne]

/-- TX_WRITE of a sound sender writes the header and the bytes of the next chunk, and goes on as the answer says. -/
theorem execTxWrite_sends {s : State} {k : Nat} (hd : s.devices[k]? = some d) (hb : d.tx.busy = true)
    (hsound : d.SenderSound) (ha : WriteAnswers d.env.txWrite d.fresh a rest f) {bytes : List Byte} {e : Device}
    (hbytes : bytes = d.tx.type :: BitVec.ofNat 8 d.nextChunkLength :: d.nextChunk)
    (he : Device.afterChunk
      { d with
        tx := { d.tx with txs := d.tx.txs ++ wireBytes bytes a }
        trace := d.trace ++ [.txWrite bytes (decide (a = .accepted))]
        env := { d.env with txWrite := rest }
        fresh := f } (decide (a = .accepted)) d.nextChunkLength = e) :
    execTxWrite k s = .next (s.setDevice k e) := by
  have hlength := hsound.nextChunk_length hb
  have hframe : frameBytes d.tx.type d.nextChunk = bytes := by rw [hbytes, frameBytes, hlength]; rfl
  rw [execTxWrite, opTxWrite_runs hd (hsound hb).1 hb hlength, Device.sendChunk, hframe, Device.callTxWrite_of ha, he]

end

/-- Settles O44: the packet is written, and the three clauses are the three ways in which SEND_CHUNK goes on. -/
theorem txWriteWritesChunk : Obligations.TxWriteWritesChunk := by
  intro s k d a rest f hd hb hsound ha len bytes off
  refine ⟨?_, ?_, ?_⟩
  · rintro sent rfl
    exact execTxWrite_sends hd hb hsound ha (bytes := bytes) rfl rfl
  · rintro rfl hlast
    exact execTxWrite_sends hd hb hsound ha (bytes := bytes) rfl (Device.afterChunk_last (Nat.min_eq_right hlast))
  · rintro rfl hmore
    have hlen : len = 254 := Nat.min_eq_left hmore.le
    rw [show d.tx.rem.toNat - 254 = d.tx.rem.toNat - len by rw [hlen]]
    exact execTxWrite_sends hd hb hsound ha (bytes := bytes) rfl (Device.afterChunk_more (hlen.trans_lt hmore))

/-! ## T_OPEN and T_CLOSE -/

theorem Device.callTOpen_of {d : Device} {answer : Option Token} {handles : List (Option Token)} {f : FreeKey}
    (h : Taken d.env.tOpen (Config.freeTOpen d.fresh) d.fresh answer handles f) (p b : Token) :
    d.callTOpen p b =
      (answer, { d with trace := d.trace ++ [.tOpen p b answer], env := { d.env with tOpen := handles }, fresh := f }) := by
  simp only [Device.callTOpen, Device.takeTOpen_of h]
  rfl

/-- Settles O56: on a closed device T_OPEN takes the transport's answer, and the result tells a handle from a failure. -/
theorem tOpenAsksTransport : Obligations.TOpenAsksTransport := by
  intro s k d p b answer handles f hd ho ha
  refine (withClosed_closed hd ho _).trans ?_
  simp only [Device.tOpenAlone, Device.callTOpen_of ha]
  rfl

/-- Settles O57: T_CLOSE needs its device and no state of it. -/
theorem tCloseTellsTransport : Obligations.TCloseTellsTransport := by
  intro s k d hd
  exact withDevice_some hd _

end Sys2Proof.Machine
end

section
/-! A frame that arrives on an open device with no partial frame (R67, R77): its header is delivered, then its value, and the packet is handed
over to a handler that invokes nothing. -/

namespace Sys2Proof.Machine

/-! ## The packet in the buffer -/

section
variable {d : Device} {type : Byte} {value : List Byte} (h : d.Holds (frameBytes type value)) (hvalue : value.length ≤ 254)
include h hvalue

/-- The fields of ON_READ's record (R59). -/
theorem Device.Holds.packet :
    d.rx.rbuf.get 0 = type ∧ d.rx.rbuf.get 1 = byteOf value.length ∧ d.packetValue = value := by
  obtain ⟨-, -, -, hpackets⟩ := h.complete hvalue
  simpa [Device.madeOnRead, packetsRead, packetOf] using hpackets

/-- The hand-over of a frame to a handler that invokes nothing (R77, R78). -/
theorem handOver_frame {k : Nat} {s : State} {e : Device} {a : HandlerAnswer} {rest : List HandlerAnswer} {f : FreeKey}
    (hd : s.devices[k]? = some e) (ha : Answers d.env.onRead d.fresh a rest f) (hquiet : a.calls = []) :
    handOver k d s = .next (s.setDevice k { d with
      rx := { d.rx with acc := 0#9 }
      trace := d.trace ++ [.onRead d.binding.context type (byteOf value.length) value a.status, .setReadSize 2#8]
      env := { d.env with onRead := rest }
      fresh := f
      result := some a.status }) := by
  obtain ⟨htype, hlength, hpayload⟩ := h.packet hvalue
  obtain ⟨-, -, hL, -⟩ := h.complete hvalue
  have hanswer := Device.takeOnRead_of ha
  rw [handOver_quiet hd (by omega) (by rw [hanswer]; exact hquiet)]
  simp [Device.madeOnRead, hanswer, htype, hlength, hpayload, Device.afterOnRead, Device.record, Device.setAcc,
    Device.callSetReadSize, Device.ret]

end

/-! ## The two deliveries -/

section
variable {k : Nat} {s : State} {d : Device} {held bs : List Byte}

/-- One delivery of FEED: the bytes requested are delivered, and the feed goes on with the rest. -/
theorem feed_delivers {fuel : Nat} {rest : List Byte} (h : d.Holds held) (hd : s.devices[k]? = some d) (hbs : bs ≠ [])
    (hsize : d.nextReadSize.toNat = bs.length) :
    feed k (fuel + 1) (bs ++ rest) s = andThen (opDeliver k bs s) (feed k fuel rest) := by
  obtain ⟨b, bs, rfl⟩ := List.exists_cons_of_ne_nil hbs
  rw [List.cons_append, feed_cons hd h.isOpen, if_neg (by simp [h.unfaulted]), hsize, ← List.cons_append, List.take_left,
    List.drop_left]

/-- The bytes that complete a frame are handed over (R77). -/
theorem opDeliver_last {type : Byte} {value : List Byte} (h : d.Holds held) (hd : s.devices[k]? = some d)
    (hframe : held ++ bs = frameBytes type value) (hvalue : value.length ≤ 254) :
    ((d.consume bs).append bs).Holds (frameBytes type value) ∧
      opDeliver k bs s = handOver k ((d.consume bs).append bs) s := by
  have hlen := held_length hframe
  have hin := h.append (bs := bs) (by omega)
  rw [hframe] at hin
  obtain ⟨h2, hgot, -, -⟩ := hin.complete hvalue
  exact ⟨hin, by rw [h.opDeliver_eq hd (by omega), afterAppend_complete h2 hgot]⟩

/-- With the header alone in, the whole value is missing (R62). -/
theorem Device.Holds.header {type : Byte} {value : List Byte} (h : d.Holds [type, byteOf value.length])
    (hvalue : value.length ≤ 254) : 2 ≤ d.rx.acc.toNat ∧ d.frameLength = value.length ∧ d.got = 0 :=
  ⟨h.acc.ge, h.frameLength (type := type) (rest := value) rfl hvalue (by simp), by simp [Device.got, h.acc]⟩

/-- With the header in and bytes of the value missing, these are requested (R76). -/
theorem afterAppend_awaitsPayload (h2 : 2 ≤ d.rx.acc.toNat) (hmore : d.got < d.frameLength) :
    afterAppend k d s = .next (s.setDevice k ((d.callSetReadSize (d.frameLength - d.got)).ret Config.ok)) := by
  rw [afterAppend, if_neg (Nat.not_lt.mpr h2), if_neg (by omega), if_pos hmore]

/-- The device with the header of a frame of `n` bytes in, and the `n` bytes requested. -/
def Device.headerIn (d : Device) (type : Byte) (n : Nat) : Device :=
  (((d.consume [type, byteOf n]).append [type, byteOf n]).callSetReadSize n).ret Config.ok

/-- A header alone, of a frame with a value, is a delivery that requests the value (R76). -/
theorem opDeliver_header {type : Byte} {value : List Byte} (h : d.Holds []) (hd : s.devices[k]? = some d)
    (hvalue : value.length ≤ 254) (hsome : value ≠ []) :
    (d.headerIn type value.length).Holds [type, byteOf value.length] ∧
      (d.headerIn type value.length).nextReadSize.toNat = value.length ∧
      opDeliver k [type, byteOf value.length] s = .next (s.setDevice k (d.headerIn type value.length)) := by
  have happended := h.append (bs := [type, byteOf value.length]) (by simp)
  have hin : (d.headerIn type value.length).Holds [type, byteOf value.length] := happended.of_same rfl rfl
  refine ⟨hin, ?_, ?_⟩
  · obtain ⟨h2, hL, hgot⟩ := hin.header hvalue
    rw [Device.nextReadSize_payload hin.isOpen hin.unfaulted h2 (by omega), hL, hgot]
    exact byteOf_toNat (by omega)
  · obtain ⟨h2, hL, hgot⟩ := happended.header hvalue
    have hpos := List.length_pos_iff.mpr hsome
    rw [h.opDeliver_eq hd (by simp), afterAppend_awaitsPayload h2 (by omega), hL, hgot]
    rfl

end

/-- Settles O35: the header is delivered, then the value it announces, if any; either way the last delivery completes the frame. -/
theorem frameIsHandedOver : Obligations.FrameIsHandedOver := by
  intro s k d type value a rest f hd ho hf hacc hwf hvalue ha hquiet
  have hempty : d.Holds [] := ⟨ho, hf, hwf, by rw [hacc]; rfl⟩
  have hlength : 0 + (type :: BitVec.ofNat 8 value.length :: value).length ≤ 256 := by simp only [List.length_cons]; omega
  refine ⟨d.rx.rbuf.putRun 0 (type :: BitVec.ofNat 8 value.length :: value), ⟨Memory.putRun_wf hwf hlength,
    fun i => Memory.get_putRun_inside i.isLt hwf hlength, fun b hb => Memory.get_putRun_other hb⟩, ?_⟩
  have hsize : d.nextReadSize.toNat = [type, byteOf value.length].length := by
    rw [Device.nextReadSize_header ho hf (by simp [hacc]), hacc]; rfl
  have hfeed : exec (.frame k type value) s =
      andThen (opDeliver k [type, byteOf value.length] s) (feed k (value.length + 2) value) :=
    feed_delivers (rest := value) hempty hd (by simp) hsize
  rw [hfeed]
  by_cases hnone : value = []
  · subst hnone
    obtain ⟨hin, hdeliver⟩ := opDeliver_last (bs := [type, byteOf 0]) (type := type) (value := []) hempty hd rfl hvalue
    rw [List.length_nil, hdeliver, handOver_frame hin hvalue hd ha hquiet]
    simp [byteOf, hf, hacc]
  · obtain ⟨hin, hread, hdeliver⟩ := opDeliver_header (type := type) hempty hd hvalue hnone
    have hset := State.setDevice_get (d.headerIn type value.length) hd
    obtain ⟨hfull, hlast⟩ := opDeliver_last (bs := value) hin hset rfl hvalue
    rw [hdeliver, andThen_next]
    have hrest := feed_delivers (rest := []) (fuel := value.length + 1) hin hset hnone hread
    rw [List.append_nil] at hrest
    rw [hrest, hlast, handOver_frame hfull hvalue hset ha hquiet]
    simp [Device.headerIn, byteOf, hf, hacc, hnone, Memory.putRun]

end Sys2Proof.Machine
end

section
/-! What a delivery on an open unfaulted device comes to, branch by branch (R72 to R79), with no more known of the device than the branch asks
for. -/

namespace Sys2Proof.Machine

/-! ## A device at rest asks for what is missing -/

/-- A device at rest requests `next_read_size` (R75, R76, R81). -/
def Device.requestsMore (d : Device) : Device := d.record (.setReadSize d.nextReadSize)

@[simp] theorem Device.requestsMore_isOpen (d : Device) : d.requestsMore.isOpen = d.isOpen := rfl
@[simp] theorem Device.requestsMore_rx (d : Device) : d.requestsMore.rx = d.rx := rfl
@[simp] theorem Device.requestsMore_env (d : Device) : d.requestsMore.env = d.env := rfl
@[simp] theorem Device.requestsMore_trace (d : Device) :
    d.requestsMore.trace = d.trace ++ [.setReadSize d.nextReadSize] := rfl

section
variable {k : Nat} {s : State} {d : Device} {bs : List Byte}

theorem afterAppend_requests (ho : d.isOpen = true) (hf : d.rx.fault = .none) (hrest : d.AtRest) :
    afterAppend k d s = .next (s.setDevice k (d.requestsMore.ret Config.ok)) := by
  by_cases h2 : d.rx.acc.toNat < 2
  · rw [afterAppend, if_pos h2, Device.requestsMore, Device.nextReadSize_header ho hf h2]
    rfl
  · have hmore := (hrest ho hf).resolve_left h2
    rw [afterAppend_awaitsPayload (Nat.le_of_not_lt h2) hmore, Device.requestsMore,
      Device.nextReadSize_payload ho hf (Nat.le_of_not_lt h2) hmore.le]
    rfl

/-- Past the end of the frame the delivery raises PACKET_OVERRUN (R79). -/
theorem afterAppend_overruns (h2 : 2 ≤ d.rx.acc.toNat) (hover : d.frameLength < d.got) :
    afterAppend k d s = .next (s.setDevice k (d.raise .packetOverrun)) := by
  rw [afterAppend, if_neg (Nat.not_lt.mpr h2), if_pos hover]

/-- The device after a delivery of nothing is the device before. -/
theorem Device.append_nil (d : Device) : (d.consume []).append [] = d := by
  simp [Device.consume, Device.append, Memory.putRun]

/-- A delivery over the capacity is consumed, and raises FRAMING_OVERFLOW (R72). -/
theorem opDeliver_overflows (hd : s.devices[k]? = some d) (ho : d.isOpen = true) (hf : d.rx.fault = .none)
    (hl : 256 < d.rx.acc.toNat + bs.length) :
    opDeliver k bs s = .next (s.setDevice k ((d.consume bs).raise .framingOverflow)) := by
  rw [opDeliver_open hd ho, if_neg (by simp [hf]), if_pos hl]

/-- A delivery within the capacity is appended (R73). -/
theorem opDeliver_appends (hd : s.devices[k]? = some d) (ho : d.isOpen = true) (hf : d.rx.fault = .none)
    (hl : d.rx.acc.toNat + bs.length ≤ 256) : opDeliver k bs s = afterAppend k ((d.consume bs).append bs) s := by
  rw [opDeliver_open hd ho, if_neg (by simp [hf]), if_neg (Nat.not_lt.mpr hl)]

/-- A delivery that leaves the device at rest requests more (R75, R76). -/
theorem opDeliver_requests (hd : s.devices[k]? = some d) (ho : d.isOpen = true) (hf : d.rx.fault = .none)
    (hl : d.rx.acc.toNat + bs.length ≤ 256) (hrest : ((d.consume bs).append bs).AtRest) :
    opDeliver k bs s = .next (s.setDevice k (((d.consume bs).append bs).requestsMore.ret Config.ok)) := by
  rw [opDeliver_appends hd ho hf hl]
  exact afterAppend_requests ho hf hrest

theorem Device.append_got (hl : d.rx.acc.toNat + bs.length ≤ 256) :
    ((d.consume bs).append bs).got = d.rx.acc.toNat + bs.length - 2 := by
  rw [Device.got, Device.append_acc hl]

/-- A delivery of nothing goes on from the device as it is. -/
theorem opDeliver_nil (hd : s.devices[k]? = some d) (ho : d.isOpen = true) (hf : d.rx.fault = .none)
    (hl : d.rx.acc.toNat ≤ 256) : opDeliver k [] s = afterAppend k d s := by
  rw [opDeliver_appends (bs := []) hd ho hf hl, d.append_nil]

end

end Sys2Proof.Machine
end

section
/-! One frame, however its bytes are cut into deliveries (R73, R75 to R77): as long as bytes of it are missing every delivery only requests them,
and the delivery that brings the last ones hands the packet over. -/

namespace Sys2Proof.Machine

/-- While bytes of the frame are missing, they are what is requested: those of the header first (R20, R74). -/
theorem Device.Holds.nextReadSize_eq {d : Device} {type : Byte} {value held rest : List Byte} (h : d.Holds held)
    (hframe : held ++ rest = frameBytes type value) (hvalue : value.length ≤ 254) :
    d.nextReadSize.toNat = if held.length < 2 then 2 - held.length else 2 + value.length - held.length := by
  have hlen := held_length hframe
  have hacc := h.acc
  by_cases h2 : held.length < 2
  · rw [Device.nextReadSize_header h.isOpen h.unfaulted (by omega), BitVec.toNat_ofNat, if_pos h2]
    omega
  · have hL := h.frameLength hframe hvalue (by omega)
    have hgot : d.got + 2 = held.length := by simp only [Device.got, Config.hdrSize]; omega
    rw [Device.nextReadSize_payload h.isOpen h.unfaulted (by omega) (by omega), BitVec.toNat_ofNat, if_neg h2]
    omega

section
variable {k : Nat} {type : Byte} {value : List Byte}

/-- Deliveries within a frame of which `more` is still to come: each returns OK, and no packet is handed over. -/
theorem partialRun_reaches (ds : List (List Byte)) {s : State} {d : Device} {held more : List Byte}
    (hd : s.devices[k]? = some d) (h : d.Holds held) (hvalue : value.length ≤ 254) (hmore : more ≠ [])
    (hframe : held ++ (ds.flatten ++ more) = frameBytes type value) :
    Reaches k d (fun e => Received d (held ++ ds.flatten) [] e ∧ (ds ≠ [] → e.result = some Config.ok))
      (runAll (ds.map (Instr.deliver k)) s) := by
  induction ds generalizing s d held with
  | nil => exact .next hd ⟨⟨by simpa using h, by simp⟩, by simp⟩
  | cons bs ds ih =>
    have hlen := held_length hframe
    simp only [List.flatten_cons, List.append_assoc, List.length_append] at hframe hlen
    have hin := h.append (bs := bs) (by omega)
    rw [← List.append_assoc] at hframe
    have hreach : Reaches k d (fun e => Received d (held ++ bs) [] e ∧ e.result = some Config.ok) (opDeliver k bs s) := by
      rw [opDeliver_requests hd h.isOpen h.unfaulted (by rw [h.acc]; omega) (hin.atRest hframe hvalue (by simp [hmore]))]
      exact .setDevice hd rfl ⟨⟨hin.of_same rfl rfl, by simp [packetsRead]⟩, rfl⟩
    refine hreach.andThen fun t e _ he hreceived => ?_
    obtain ⟨⟨hheld, hpackets⟩, hok⟩ := hreceived
    by_cases hlast : ds = []
    · subst hlast
      exact .next he ⟨⟨by simpa using hheld, hpackets⟩, fun _ => hok⟩
    · refine (ih he hheld hframe).mono fun f hf => ?_
      obtain ⟨⟨hheld', hpackets'⟩, hok'⟩ := hf
      exact ⟨⟨by simpa using hheld', by simpa [hpackets] using hpackets'⟩, fun _ => hok' hlast⟩

/-- Deliveries that bring the missing bytes of a frame, the last of them with or before the last delivery: exactly its packet is handed over,
and a header is awaited again. -/
theorem completeRun_reaches (ds : List (List Byte)) {s : State} {d : Device} {held : List Byte}
    (hd : s.devices[k]? = some d) (h : d.Holds held) (hvalue : value.length ≤ 254) (hmissing : ds.flatten ≠ [])
    (hframe : held ++ ds.flatten = frameBytes type value) :
    Reaches k d (Received d [] [packetOf type value]) (runAll (ds.map (Instr.deliver k)) s) := by
  induction ds generalizing s d held with
  | nil => simp at hmissing
  | cons bs ds ih =>
    simp only [List.flatten_cons] at hframe
    by_cases hdone : ds.flatten = []
    · refine (opDeliver_completes_frame hframe hvalue h hd hdone).andThen fun t e _ he hreceived => ?_
      obtain ⟨hempty, hpackets⟩ := hreceived
      have hidle := partialRun_reaches ds (type := type) (more := frameBytes type value) he hempty hvalue
        (by simp [frameBytes]) (by simp [hdone])
      refine hidle.mono fun f hf => ?_
      obtain ⟨⟨hheld, hpackets'⟩, -⟩ := hf
      exact ⟨by simpa [hdone] using hheld, by simpa [hpackets] using hpackets'⟩
    · refine (opDeliver_within_frame hframe hvalue h hd hdone).andThen fun t e _ he hreceived => ?_
      obtain ⟨hheld, hpackets⟩ := hreceived
      refine (ih he hheld hdone (by rw [List.append_assoc, hframe])).mono fun f hf => ?_
      obtain ⟨hempty, hpackets'⟩ := hf
      exact ⟨hempty, by simpa [hpackets] using hpackets'⟩

end

/-- Settles O26, by induction on the deliveries: they end within the frame, or one of them completes it and the rest are empty. -/
theorem chunkingIndependence : Obligations.ChunkingIndependence := by
  intro s k d type value ds more hd ho hf hacc hwf hvalue hstream
  have hempty : d.Holds [] := ⟨ho, hf, hwf, by rw [hacc]; rfl⟩
  have hframe : [] ++ (ds.flatten ++ more) = frameBytes type value := hstream
  by_cases hmore : more = []
  · subst hmore
    rw [List.nil_append, List.append_nil] at hframe
    have hrun := completeRun_reaches ds hd hempty hvalue (by simp [hframe, frameBytes]) hframe
    refine ⟨hrun.safe, fun t ht => ?_⟩
    obtain ⟨e, he, -, hdone, hpackets⟩ := hrun.result t ht
    have hacc0 : e.rx.acc = 0#9 := BitVec.eq_of_toNat_eq hdone.acc
    refine ⟨e, he, hdone.isOpen, hdone.unfaulted, by simp, fun _ => ⟨hpackets, hacc0, ?_⟩⟩
    rw [Device.nextReadSize_header hdone.isOpen hdone.unfaulted (by simp [hacc0]), hacc0]
    rfl
  · have hrun := partialRun_reaches ds hd hempty hvalue hmore hframe
    refine ⟨hrun.safe, fun t ht => ?_⟩
    obtain ⟨e, he, -, ⟨hheld, hpackets⟩, hok⟩ := hrun.result t ht
    rw [List.nil_append] at hheld
    exact ⟨e, he, hheld.isOpen, hheld.unfaulted,
      fun _ => ⟨hok, by simpa using hpackets, hheld.nextReadSize_eq hframe hvalue⟩, fun h => absurd h hmore⟩

end Sys2Proof.Machine
end

section
/-! A frame whose length byte is the reserved 255 (R85): it would need 257 bytes in the buffer, so it can only overflow it. -/

namespace Sys2Proof.Machine

section
variable {k : Nat} {d : Device} {type : Byte} {value held rest : List Byte}

/-- Once the header is in, 255 bytes of payload are awaited. -/
theorem Device.Holds.frameLength_reserved (h : d.Holds held) (hframe : held ++ rest = type :: 0xFF#8 :: value)
    (h2 : 2 ≤ held.length) : d.frameLength = 255 := by
  rw [h.eq_header_payload h2] at hframe
  injection hframe with _ htail
  injection htail with hlength _
  rw [Device.frameLength, hlength]
  rfl

/-- Whatever part of it fits the buffer, payload is still missing. -/
theorem Device.Holds.atRest_reserved (h : d.Holds held) (hframe : held ++ rest = type :: 0xFF#8 :: value)
    (hfits : held.length ≤ 256) : d.AtRest := by
  intro _ _
  have hacc := h.acc
  by_cases h2 : d.rx.acc.toNat < 2
  · exact .inl h2
  · have hL := h.frameLength_reserved hframe (by omega)
    exact .inr (by simp only [Device.got, Config.hdrSize]; omega)

/-- Part of a frame has been delivered since the device was `d`, and no packet handed over: the part fits the buffer and is in, or
FRAMING_OVERFLOW is latched. -/
def Stalled (d : Device) (held : List Byte) (e : Device) : Prop :=
  packetsRead e.trace = packetsRead d.trace ∧
    ((e.Holds held ∧ held.length ≤ 256) ∨ (e.isOpen = true ∧ e.rx.fault = .framingOverflow))

/-- A delivery of bytes of the reserved frame. -/
theorem opDeliver_stalls {s : State} {e : Device} {bs : List Byte} (he : s.devices[k]? = some e)
    (h : Stalled d held e) (hframe : held ++ bs ++ rest = type :: 0xFF#8 :: value) :
    Reaches k e (Stalled d (held ++ bs)) (opDeliver k bs s) := by
  obtain ⟨hpackets, ⟨hheld, -⟩ | ⟨ho, hf⟩⟩ := h
  · by_cases hfits : held.length + bs.length ≤ 256
    · have hin := hheld.append hfits
      have hlen : (held ++ bs).length ≤ 256 := by rwa [List.length_append]
      rw [opDeliver_requests he hheld.isOpen hheld.unfaulted (by rwa [hheld.acc]) (hin.atRest_reserved hframe hlen)]
      exact .setDevice he rfl ⟨by simp [packetsRead, hpackets], .inl ⟨hin.of_same rfl rfl, hlen⟩⟩
    · rw [opDeliver_overflows he hheld.isOpen hheld.unfaulted (by rw [hheld.acc]; omega)]
      exact .setDevice he rfl ⟨hpackets, .inr ⟨hheld.isOpen, rfl⟩⟩
  · rw [opDeliver_faulted he ho (by simp [hf])]
    exact .setDevice he rfl ⟨hpackets, .inr ⟨ho, hf⟩⟩

theorem reservedRun_reaches (ds : List (List Byte)) {s : State} {e : Device} {held : List Byte}
    (he : s.devices[k]? = some e) (h : Stalled d held e) (hframe : held ++ ds.flatten = type :: 0xFF#8 :: value) :
    Reaches k e (Stalled d (held ++ ds.flatten)) (runAll (ds.map (Instr.deliver k)) s) := by
  induction ds generalizing s e held with
  | nil => exact .next he (by simpa using h)
  | cons bs ds ih =>
    rw [List.flatten_cons, ← List.append_assoc] at hframe ⊢
    exact (opDeliver_stalls he h hframe).andThen fun t f _ hf hstalled => ih hf hstalled hframe

end

/-- Settles O28, by induction on the deliveries: each finds the frame stalled and leaves it stalled. -/
theorem reservedLengthNeverCompletes : Obligations.ReservedLengthNeverCompletes := by
  intro s t k d e type value ds hd ho hf hacc hwf hstream ht he
  have hempty : d.Holds [] := ⟨ho, hf, hwf, by rw [hacc]; rfl⟩
  have hrun := reservedRun_reaches (d := d) (held := []) ds hd ⟨rfl, .inl ⟨hempty, by simp⟩⟩ hstream
  obtain ⟨e', he', -, hpackets, hin⟩ := hrun.result t ht
  obtain rfl : e = e' := by simpa [he] using he'
  refine ⟨hpackets, ?_⟩
  obtain ⟨hheld, hlen⟩ | ⟨-, hover⟩ := hin
  · refine ⟨.inl hheld.unfaulted, fun _ => ?_⟩
    rw [List.nil_append, hstream] at hlen
    simp only [List.length_cons] at hlen
    omega
  · exact ⟨.inr hover, fun hfault => by simp [hfault] at hover⟩

end Sys2Proof.Machine
end

section
/-! A latched fault (R88, D8). What a device does between two states is followed through its updates: on an open faulted device each of them is
a T_CLOSE, or leaves the fault and the frame as they are and hands nothing over. Handlers of every device are followed, for they may invoke
operations on any. -/

namespace Sys2Proof.Machine

/-! ## The trace of the sender -/

/-- The atomic SEND makes TX_WRITEs and nothing else (R100). -/
theorem Device.sendChunks_trace (type : Byte) (cs : List (List Byte)) (d : Device) :
    ∃ writes, (d.sendChunks type cs).trace = d.trace ++ writes ∧ ∀ ev ∈ writes, ∃ bytes ok, ev = .txWrite bytes ok := by
  induction cs generalizing d with
  | nil => exact ⟨[], by simp [Device.sendChunks], by simp⟩
  | cons c cs ih =>
    unfold Device.sendChunks
    split
    · obtain ⟨writes, htrace, hwrites⟩ := ih (d.callTxWrite (frameBytes type c)).2
      exact ⟨.txWrite _ _ :: writes, by rw [htrace, Device.callTxWrite_trace, List.append_assoc, List.singleton_append],
        List.forall_mem_cons.mpr ⟨⟨_, _, rfl⟩, hwrites⟩⟩
    · exact ⟨_, Device.callTxWrite_trace _ _, List.forall_mem_singleton.mpr ⟨_, _, rfl⟩⟩

/-- Neither form of SEND makes another transaction than TX_WRITE (R100, R110). -/
theorem Device.send_trace (d : Device) (form : SendForm) (type : Byte) (count : Count) (data : List Byte) :
    ∃ writes, (d.send form type count data).trace = d.trace ++ writes ∧
      ∀ ev ∈ writes, ∃ bytes ok, ev = .txWrite bytes ok := by
  cases form with
  | atomic => exact d.sendChunks_trace type _
  | start => exact ⟨[], by simp [Device.send], by simp⟩

theorem Device.sendChunk_trace (d : Device) : ∃ bytes ok, d.sendChunk.trace = d.trace ++ [.txWrite bytes ok] :=
  ⟨_, _, (Device.afterChunk_trace _ _ _).trans (d.callTxWrite_trace _)⟩

/-! ## The updates of a device -/

/-- From `d` to `e` the trace has grown; and if `d` is open with a fault latched, a T_CLOSE was made or `e` still has that fault and that
partial frame, and handed nothing over. -/
def HoldsFault (d e : Device) : Prop :=
  ∃ made, e.trace = d.trace ++ made ∧
    (d.isOpen = true → d.rx.fault ≠ .none → .tClose ∈ made ∨
      (e.isOpen = true ∧ e.rx.fault = d.rx.fault ∧ e.rx.acc = d.rx.acc ∧ e.rx.rbuf = d.rx.rbuf ∧
        ∀ ev ∈ made, isOnRead ev = false))

section
variable {d e f : Device} {made : List Event}

theorem HoldsFault.trans (h : HoldsFault d e) (h' : HoldsFault e f) : HoldsFault d f := by
  obtain ⟨made, htrace, hheld⟩ := h
  obtain ⟨made', htrace', hheld'⟩ := h'
  refine ⟨made ++ made', by rw [htrace', htrace, List.append_assoc], fun ho hf => ?_⟩
  obtain hclosed | ⟨hopen, hfault, hacc, hbuf, hquiet⟩ := hheld ho hf
  · exact .inl (List.mem_append_left _ hclosed)
  · obtain hclosed | ⟨hopen', hfault', hacc', hbuf', hquiet'⟩ := hheld' hopen (hfault ▸ hf)
    · exact .inl (List.mem_append_right _ hclosed)
    · exact .inr ⟨hopen', hfault'.trans hfault, hacc'.trans hacc, hbuf'.trans hbuf, fun ev hev =>
        (List.mem_append.mp hev).elim (hquiet ev) (hquiet' ev)⟩

/-- The receive datapath is as it was, and the transactions made are none of its own. -/
theorem HoldsFault.of_rx (ho : e.isOpen = d.isOpen) (hrx : e.rx = d.rx) (htrace : e.trace = d.trace ++ made)
    (hquiet : ∀ ev ∈ made, isOnRead ev = false) : HoldsFault d e :=
  ⟨made, htrace, fun hopen _ => .inr ⟨ho.trans hopen, by rw [hrx], by rw [hrx], by rw [hrx], hquiet⟩⟩

/-- One transaction that is no ON_READ. -/
theorem HoldsFault.of_event {ev : Event} (ho : e.isOpen = d.isOpen) (hrx : e.rx = d.rx) (htrace : e.trace = d.trace ++ [ev])
    (hev : isOnRead ev = false) : HoldsFault d e :=
  .of_rx ho hrx htrace (List.forall_mem_singleton.mpr hev)

/-- No transaction. -/
theorem HoldsFault.of_same (ho : e.isOpen = d.isOpen) (hrx : e.rx = d.rx) (htrace : e.trace = d.trace) : HoldsFault d e :=
  .of_rx (made := []) ho hrx (by simp [htrace]) (by simp)

theorem HoldsFault.record {ev : Event} (h : HoldsFault d e) (hev : isOnRead ev = false) : HoldsFault d (e.record ev) :=
  h.trans (.of_event rfl rfl rfl hev)

/-- No fault is latched on an open device. -/
theorem HoldsFault.of_unlatched (hd : d.isOpen = true → d.rx.fault = .none) (htrace : e.trace = d.trace ++ made) :
    HoldsFault d e :=
  ⟨made, htrace, fun ho hf => absurd (hd ho) hf⟩

/-- A delivery on a faulted device is consumed and nothing else (R71). -/
theorem consume_holdsFault (d : Device) (bs : List Byte) (r : Status) : HoldsFault d ((d.consume bs).ret r) :=
  ⟨[], by simp, fun ho _ => .inr ⟨ho, rfl, rfl, rfl, by simp⟩⟩

theorem send_holdsFault (d : Device) (form : SendForm) (type : Byte) (count : Count) (data : List Byte) :
    HoldsFault d (d.send form type count data) := by
  obtain ⟨writes, htrace, hwrites⟩ := d.send_trace form type count data
  refine .of_rx (d.send_isOpen form type count data) (d.send_rx form type count data) htrace fun ev hev => ?_
  obtain ⟨bytes, ok, rfl⟩ := hwrites ev hev
  rfl

/-- OPEN runs on a closed device, and CLOSE makes a T_CLOSE (R123, R128). -/
theorem callEffect_holdsFault {c : CallerCall} (hr : callRuns c d) : HoldsFault d (callEffect c d) := by
  cases c with
  | openDevice dev add remove p b x =>
    obtain ⟨made, htrace, -⟩ := openWith_writesFrames d add remove p b x
    have hclosed : d.isOpen = false := hr
    exact .of_unlatched (fun ho => by simp [hclosed] at ho) htrace
  | close dev => exact ⟨[.tClose], rfl, fun _ _ => .inl (by simp)⟩
  | send dev form type count data => exact send_holdsFault d form type count data

end

/-! ## Operations and handlers -/

/-- What was said of device `k` since it was `d` holds of it as it is in `s`. -/
def FaultHeld (k : Nat) (d : Device) (s : State) : Prop := ∃ e, s.devices[k]? = some e ∧ HoldsFault d e

section
variable {k j : Nat} {d : Device} {s t : State}

theorem FaultHeld.setDevice {e f : Device} (hs : FaultHeld k d s) (he : s.devices[j]? = some e) (h : HoldsFault e f) :
    FaultHeld k d (s.setDevice j f) := by
  obtain ⟨g, hg, hheld⟩ := hs
  by_cases hjk : j = k
  · subst hjk
    obtain rfl : e = g := by simpa [he] using hg
    exact ⟨f, State.setDevice_get f he, hheld.trans h⟩
  · exact ⟨g, by rw [State.setDevice_get_other f s (Ne.symm hjk), hg], hheld⟩

theorem runCalls_faultHeld {reading : Option Nat} {cs : List CallerCall} (hs : FaultHeld k d s)
    (h : runCalls reading cs s = .next t) : FaultHeld k d t := by
  refine runCalls_keeps (fun c _ u v hu hv => ?_) hs h
  obtain ⟨e, he, hr, -, rfl⟩ := runCall_eq_next hv
  exact hu.setDevice he ((callEffect_holdsFault hr).record rfl)

/-- A handler outside ON_READ. -/
theorem runHandler_faultHeld {cs : List CallerCall} {r : Status} (hs : FaultHeld k d s)
    (h : runHandler none cs j (fun e => e.ret r) s = .next t) : FaultHeld k d t := by
  obtain ⟨u, e, hu, he, rfl⟩ := runHandler_eq_next h
  exact (runCalls_faultHeld hs hu).setDevice he (.of_same rfl rfl rfl)

theorem opWriteComplete_faultHeld {n : Token} (hs : FaultHeld k d s) (h : opWriteComplete j n s = .next t) :
    FaultHeld k d t := by
  obtain ⟨e, he, -, h⟩ := withOpen_eq_next h
  exact runHandler_faultHeld (hs.setDevice he (.record (.of_same (by simp) (by simp) (by simp)) rfl)) h

theorem opTransportClose_faultHeld (hs : FaultHeld k d s) (h : opTransportClose j s = .next t) : FaultHeld k d t := by
  obtain ⟨e, he, -, h⟩ := withOpen_eq_next h
  exact runHandler_faultHeld (hs.setDevice he (.record (.of_same (by simp) (by simp) (by simp)) rfl)) h

/-- The hand-over of a packet by device `j`: the handler leaves `open` and the receive datapath as they are (R183), and the operation finishes
on the device it left. -/
theorem handOver_reading {e f : Device} (he : s.devices[j]? = some e) (ho : f.isOpen = true)
    (h : handOver j f s = .next t) : ∃ u g, runCalls (some j) f.takeOnRead.1.calls (s.setDevice j f.madeOnRead) = .next u ∧
      u.devices[j]? = some g ∧ Reading f.madeOnRead g ∧ t = u.setDevice j (g.afterOnRead f.takeOnRead.1.status) := by
  obtain ⟨-, u, g, hu, hg, rfl⟩ := handOver_eq_next h
  obtain ⟨g', hg', hreading⟩ :=
    runCalls_reading (State.setDevice_get f.madeOnRead he) (by simpa [Device.madeOnRead] using ho) hu
  obtain rfl : g = g' := by simpa [hg] using hg'
  exact ⟨u, g, hu, hg, hreading, rfl⟩

/-- The hand-over of a packet by device `j`, which was `e` before the bytes of the packet came in. No fault is latched on it, and the handler
leaves it so. -/
theorem handOver_faultHeld {e f : Device} (hs : FaultHeld k d s) (he : s.devices[j]? = some e) (ho : f.isOpen = true)
    (hfault : f.rx.fault = .none) (heFault : e.rx.fault = .none) (htrace : f.trace = e.trace)
    (h : handOver j f s = .next t) : FaultHeld k d t := by
  obtain ⟨u, g, hu, hg, hreading, rfl⟩ := handOver_reading he ho h
  have hmade : HoldsFault e f.madeOnRead :=
    .of_unlatched (fun _ => heFault) (by rw [Device.madeOnRead, Device.record_trace, Device.takeOnRead_trace, htrace])
  refine (runCalls_faultHeld (hs.setDevice he hmade) hu).setDevice hg (.of_unlatched (fun _ => ?_) rfl)
  simpa [hreading.rx, Device.madeOnRead] using hfault

theorem opDeliver_faultHeld {bs : List Byte} (hs : FaultHeld k d s) (h : opDeliver j bs s = .next t) : FaultHeld k d t := by
  obtain ⟨e, he, ho, h⟩ := withOpen_eq_next h
  split at h
  next => cases h; exact hs.setDevice he (consume_holdsFault e bs _)
  next hunfaulted =>
    have hf : e.rx.fault = .none := e.faulted_eq_false.mp (Bool.eq_false_iff.mpr hunfaulted)
    have hset {g : Device} {made : List Event} (hg : g.trace = e.trace ++ made) : FaultHeld k d (s.setDevice j g) :=
      hs.setDevice he (.of_unlatched (fun _ => hf) hg)
    have hnothing : e.trace = e.trace ++ [] := by simp
    split at h
    next => cases h; exact hset hnothing
    next =>
      unfold afterAppend at h
      split at h
      next => cases h; exact hset rfl
      next =>
        split at h
        next => cases h; exact hset hnothing
        next =>
          split at h
          next => cases h; exact hset rfl
          next => exact handOver_faultHeld (f := (e.consume bs).append bs) hs he ho hf hf rfl h

theorem feed_faultHeld {fuel : Nat} {bs : List Byte} (hs : FaultHeld k d s) (h : feed j fuel bs s = .next t) :
    FaultHeld k d t := by
  induction fuel generalizing bs s with
  | zero => cases h; exact hs
  | succ fuel ih =>
    cases bs with
    | nil => cases h; exact hs
    | cons b bs =>
      obtain ⟨e, -, -, h⟩ := withOpen_eq_next h
      split at h
      · cases h; exact hs
      · obtain ⟨u, hu, h⟩ := andThen_eq_next.mp h
        exact ih (opDeliver_faultHeld hs hu) h

end

theorem exec_faultHeld {i : Instr} {k : Nat} {d : Device} {s t : State} (hs : FaultHeld k d s) (h : exec i s = .next t) :
    FaultHeld k d t := by
  cases i with
  | frame j type value => exact feed_faultHeld hs h
  | frameRsvdL255 j type value => exact feed_faultHeld hs h
  | openDevice j add remove p b c =>
    obtain ⟨e, he, ho, rfl⟩ := opOpen_eq_next h
    exact hs.setDevice he (callEffect_holdsFault (c := .openDevice j add remove p b c) ho)
  | close j =>
    obtain ⟨e, he, ho, rfl⟩ := opClose_eq_next h
    exact hs.setDevice he (callEffect_holdsFault (c := .close j) ho)
  | deliver j bs => exact opDeliver_faultHeld hs h
  | deliverFail j =>
    obtain ⟨e, he, -, h⟩ := withOpen_eq_next h
    split at h
    next => cases h; exact hs.setDevice he (.of_same rfl rfl rfl)
    next hunfaulted =>
      cases h
      exact hs.setDevice he (.of_unlatched (made := [])
        (fun _ => e.faulted_eq_false.mp (Bool.eq_false_iff.mpr hunfaulted)) (by simp))
  | send j form type count data =>
    obtain ⟨e, he, -, -, -, rfl⟩ := opSend_eq_next h
    exact hs.setDevice he (send_holdsFault e form type count data)
  | writeComplete j n => exact opWriteComplete_faultHeld hs h
  | transportClose j => exact opTransportClose_faultHeld hs h
  | onRead j =>
    obtain ⟨e, he, ho, h⟩ := withOpen_eq_next h
    split at h
    next hready =>
      have hf : e.rx.fault = .none := by
        by_contra hfault
        simp [Device.rxState, ho, hfault] at hready
      exact handOver_faultHeld hs he ho hf hf rfl h
    next => cases h
  | setReadSize j =>
    obtain ⟨e, he, -, h⟩ := withOpen_eq_next h
    split at h
    · cases h; exact hs.setDevice he (.of_event rfl rfl rfl rfl)
    · cases h
  | txWrite j =>
    obtain ⟨e, he, -, -, -, rfl⟩ := opTxWrite_eq_next h
    obtain ⟨bytes, ok, htrace⟩ := e.sendChunk_trace
    exact hs.setDevice he (.of_event e.sendChunk_isOpen e.sendChunk_rx htrace rfl)
  | onWriteComplete j n => exact opWriteComplete_faultHeld hs h
  | onClose j => exact opTransportClose_faultHeld hs h
  | tOpen j p b =>
    obtain ⟨e, he, -, h⟩ := withClosed_eq_next h
    cases h
    exact hs.setDevice he (.of_event (by simp [Device.tOpenAlone]) (by simp [Device.tOpenAlone]) (e.callTOpen_trace p b) rfl)
  | tClose j =>
    obtain ⟨e, he, h⟩ := withDevice_eq_next h
    cases h
    exact hs.setDevice he (.of_event rfl rfl rfl rfl)

/-- Settles O30: every instruction is a run of updates that hold the fault. -/
theorem faultLeavesOnlyByClose : Obligations.FaultLeavesOnlyByClose := by
  intro i s t k d hd ho hf h
  obtain ⟨e, he, made, htrace, hheld⟩ := exec_faultHeld ⟨d, hd, .of_same rfl rfl rfl⟩ h
  exact ⟨e, made, he, htrace, hheld ho hf⟩

end Sys2Proof.Machine
end

section
/-! DELIVER on an open unfaulted device, one statement for each of its branches (R72 to R79), and the two transactions SET_READ_SIZE and ON_READ
requested by themselves, which go on as DELIVER does. -/

namespace Sys2Proof.Machine

/-- What an append leaves in the buffer (R73). -/
theorem Memory.putRun_appended {m : Memory} {a : Nat} {bs : List Byte} (hm : m.wf) (hl : a + bs.length ≤ 256) :
    Appended m a bs (m.putRun a bs) :=
  ⟨Memory.putRun_wf hm hl, fun i => Memory.get_putRun_inside i.isLt hm hl, fun _ hb => Memory.get_putRun_other hb⟩

/-! ## Waiting for more -/

/-- Settles O16: the capacity is checked before anything is stored. -/
theorem deliverOverflow : Obligations.DeliverOverflow := by
  intro s k d bs hd ho hf hl
  exact opDeliver_overflows hd ho hf hl

/-- Settles O18: after the append the device awaits its header. -/
theorem deliverAwaitingHeader : Obligations.DeliverAwaitingHeader := by
  intro s k d bs hd ho hf hwf h2
  have hl : d.rx.acc.toNat + bs.length ≤ 256 := by omega
  have hacc := Device.append_acc hl
  have hheader : ((d.consume bs).append bs).rx.acc.toNat < 2 := by omega
  refine ⟨_, Memory.putRun_appended hwf hl, (opDeliver_requests hd ho hf hl fun _ _ => .inl hheader).trans ?_⟩
  rw [Device.requestsMore, Device.nextReadSize_header (d := (d.consume bs).append bs) ho hf hheader, hacc]
  rfl

/-- Settles O19: after the append the device awaits its payload. -/
theorem deliverAwaitingPayload : Obligations.DeliverAwaitingPayload := by
  intro s k d bs hd ho hf hwf h2 hl
  have hacc := Device.append_acc hl
  have hgot := Device.append_got hl
  refine ⟨_, Memory.putRun_appended hwf hl, fun hmore => ?_⟩
  have hpayload : ((d.consume bs).append bs).got < ((d.consume bs).append bs).frameLength := hgot.trans_lt hmore
  refine (opDeliver_requests hd ho hf hl fun _ _ => .inr hpayload).trans ?_
  rw [Device.requestsMore, Device.nextReadSize_payload (d := (d.consume bs).append bs) ho hf (by omega) hpayload.le, hgot]
  rfl

/-- Settles O20: after the append the buffer holds more than the frame. -/
theorem deliverOverrun : Obligations.DeliverOverrun := by
  intro s k d bs hd ho hf hwf h2 hl
  have hacc := Device.append_acc hl
  refine ⟨_, Memory.putRun_appended hwf hl, fun hover => (opDeliver_appends hd ho hf hl).trans ?_⟩
  exact afterAppend_overruns (d := (d.consume bs).append bs) (by omega) (hover.trans_eq (Device.append_got hl).symm)

/-- Settles O24: the append stores nothing, and the device at rest requests again what it requested. -/
theorem emptyDeliveryRepeatsRequest : Obligations.EmptyDeliveryRepeatsRequest := by
  intro s k d hd ho hf hacc hrest
  exact (opDeliver_nil hd ho hf hacc).trans (afterAppend_requests ho hf hrest)

/-- SET_READ_SIZE by itself makes the request of a device at rest (R56, R81). -/
theorem execSetReadSize_requests {k : Nat} {s : State} {d : Device} (hd : s.devices[k]? = some d) (ho : d.isOpen = true)
    (hf : d.rx.fault = .none) (hrest : d.AtRest) : execSetReadSize k s = .next (s.setDevice k d.requestsMore) := by
  have hstate : d.rxState = .awaitingHeader ∨ d.rxState = .awaitingPayload := by
    by_cases h2 : d.rx.acc.toNat < 2
    · exact .inl (Device.rxState_of_header ho hf h2)
    · exact .inr (Device.rxState_of_payload ho hf (Nat.le_of_not_lt h2) ((hrest ho hf).resolve_left h2))
  rw [execSetReadSize, withOpen_open hd ho, if_pos hstate, Device.requestsMore]

/-- Settles O34: in both waiting states the device is at rest, and `next_read_size` is what is missing. -/
theorem setReadSizeRequests : Obligations.SetReadSizeRequests := by
  intro s k d hd ho hf
  refine ⟨fun h2 => ?_, fun h2 hmore => ?_⟩
  · refine (execSetReadSize_requests hd ho hf fun _ _ => .inl h2).trans ?_
    rw [Device.requestsMore, Device.nextReadSize_header ho hf h2]
    rfl
  · have hgot : d.got < d.frameLength := hmore
    refine (execSetReadSize_requests hd ho hf fun _ _ => .inr hgot).trans ?_
    rw [Device.requestsMore, Device.nextReadSize_payload ho hf h2 hgot.le]
    rfl

/-- What follows an append never raises FRAMING_OVERFLOW, whatever the handler does (R72, R183). -/
theorem afterAppend_no_overflow {k : Nat} {s t : State} {c d e : Device} (hc : s.devices[k]? = some c)
    (ho : d.isOpen = true) (hf : d.rx.fault = .none) (h : afterAppend k d s = .next t) (he : t.devices[k]? = some e) :
    e.rx.fault ≠ .framingOverflow := by
  have hset {f : Device} (hfault : f.rx.fault ≠ .framingOverflow) (ht : .next (s.setDevice k f) = (.next t : Result)) :
      e.rx.fault ≠ .framingOverflow := by
    cases ht
    rw [State.setDevice_get f hc] at he
    cases he
    exact hfault
  by_cases hrest : d.rx.acc.toNat < 2 ∨ d.got < d.frameLength
  · rw [afterAppend_requests ho hf fun _ _ => hrest] at h
    exact hset (by simp [hf]) h
  · obtain ⟨h2, hgot⟩ := not_or.mp hrest
    by_cases hover : d.frameLength < d.got
    · rw [afterAppend_overruns (Nat.le_of_not_lt h2) hover] at h
      exact hset (by simp) h
    · rw [afterAppend_complete (Nat.le_of_not_lt h2) (by omega)] at h
      obtain ⟨u, f, -, hf', hreading, rfl⟩ := handOver_reading hc ho h
      rw [State.setDevice_get _ hf'] at he
      cases he
      simp [Device.afterOnRead, hreading.rx, Device.madeOnRead, hf]

/-- Settles O17: over the capacity the fault is raised, and within it no branch raises it. -/
theorem overflowOnlyAboveCapacity : Obligations.OverflowOnlyAboveCapacity := by
  intro s t k d e bs hd ho hf h he
  by_cases hl : 256 < d.rx.acc.toNat + bs.length
  · cases (opDeliver_overflows hd ho hf hl).symm.trans h
    rw [State.setDevice_get _ hd] at he
    cases he
    exact ⟨fun _ => hl, fun _ => rfl⟩
  · have happend := (opDeliver_appends hd ho hf (Nat.le_of_not_lt hl)).symm.trans h
    have hnone := afterAppend_no_overflow (d := (d.consume bs).append bs) hd ho hf happend he
    exact ⟨fun hfault => absurd hfault hnone, fun h => absurd h hl⟩

/-! ## Handing a packet over -/

section
variable {k : Nat} {s u : State} {d e : Device} {a : HandlerAnswer} {rest : List HandlerAnswer} {f : FreeKey}

theorem Device.madeOnRead_of (ha : Answers d.env.onRead d.fresh a rest f) :
    d.madeOnRead = { d with
      trace := d.trace ++ [.onRead d.binding.context (d.rx.rbuf.get 0) (d.rx.rbuf.get 1) d.packetValue a.status]
      env := { d.env with onRead := rest }
      fresh := f } := by
  rw [Device.madeOnRead, Device.takeOnRead_of ha]
  rfl

/-- The hand-over finishes on the device as the handler left it (R77, D19). -/
theorem handOver_runs (hl : d.frameLength ≤ 254) (ha : Answers d.env.onRead d.fresh a rest f)
    (hu : runCalls (some k) a.calls (s.setDevice k d.madeOnRead) = .next u) (he : u.devices[k]? = some e) :
    handOver k d s = .next (u.setDevice k (e.afterOnRead a.status)) := by
  rw [handOver, if_neg (by simp; omega), Device.takeOnRead_of ha, runHandler, hu, andThen_next, withDevice_some he]

/-- With the whole frame in, ON_READ by itself is the hand-over (R77). -/
theorem execOnRead_ready (hd : s.devices[k]? = some d) (ho : d.isOpen = true) (hf : d.rx.fault = .none)
    (h2 : 2 ≤ d.rx.acc.toNat) (hgot : d.got = d.frameLength) : execOnRead k s = handOver k d s := by
  have hready : d.rxState = .packetReady := by simp [Device.rxState, ho, hf, Nat.not_lt.mpr h2, hgot]
  rw [execOnRead, withOpen_open hd ho, if_pos hready]

/-- A SEND that a handler invokes by itself: it runs as it does outside, and its result goes back to the handler (R152). -/
theorem runCalls_send {reading : Option Nat} {form : SendForm} {type : Byte} {count : Count} {data : List Byte}
    (hd : s.devices[k]? = some d) (ho : d.isOpen = true) (hidle : d.tx.busy = false) (hdata : count.toNat ≤ data.length) :
    runCalls reading [.send k form type count data] s = .next (s.setDevice k
      ((d.send form type count data).record (.returned (d.send form type count data).result))) := by
  have hnote := withDevice_some (State.setDevice_get (d.send form type count data) hd)
  simp [runCalls, runCall, callOperation, callDevice, opSend_runs hd ho hidle hdata, noteReturn, hnote]

end

/-- Settles O22: the append completes the frame, so the DELIVER is the hand-over, and the handler may not close the device. -/
theorem deliverRunsHandlerInside : Obligations.DeliverRunsHandlerInside := by
  intro s k d bs a rest f hd ho hf hwf h2 hl ha
  have hacc := Device.append_acc hl
  refine ⟨_, Memory.putRun_appended hwf hl, fun hgot u e hu he => ?_⟩
  have hcomplete : ((d.consume bs).append bs).got = ((d.consume bs).append bs).frameLength :=
    (Device.append_got hl).trans hgot
  have hL : ((d.consume bs).append bs).frameLength ≤ 254 := by
    rw [← hcomplete, Device.append_got hl]
    omega
  have hmade := Device.madeOnRead_of (d := (d.consume bs).append bs) ha
  have hset := State.setDevice_get ((d.consume bs).append bs).madeOnRead hd
  rw [hmade] at hset
  obtain ⟨e', he', hreading⟩ := runCalls_reading hset ho hu
  obtain rfl : e = e' := by simpa [he] using he'
  refine ⟨hreading.isOpen.trans ho, (opDeliver_appends hd ho hf hl).trans ?_⟩
  rw [afterAppend_complete (by omega) hcomplete]
  exact handOver_runs hL ha (hmade ▸ hu) he

/-- Settles O21: a silent handler leaves the device as ON_READ left it. -/
theorem deliverCompletesPacket : Obligations.DeliverCompletesPacket := by
  intro s k d bs a rest f hd ho hf hwf h2 hl ha hquiet
  obtain ⟨m', happended, hrun⟩ := deliverRunsHandlerInside s k d bs a rest f hd ho hf hwf h2 hl ha
  refine ⟨m', happended, fun hgot => ?_⟩
  obtain ⟨-, hdeliver⟩ := hrun hgot _ _ (by rw [hquiet]; rfl) (State.setDevice_get _ hd)
  rw [hdeliver, State.setDevice_setDevice]
  simp

/-- Settles O31: the packet that is ready is handed over to a silent handler. -/
theorem onReadHandsOver : Obligations.OnReadHandsOver := by
  intro s k d a rest f hd ho hf h2 hl hgot ha hquiet
  have hL : d.frameLength ≤ 254 := by rw [Device.frameLength]; omega
  refine (execOnRead_ready hd ho hf h2 hgot).trans ?_
  rw [handOver_runs hL ha (by rw [hquiet]; rfl) (State.setDevice_get _ hd), State.setDevice_setDevice, Device.madeOnRead_of ha,
    Device.packetValue, Device.frameLength, ← hgot]
  simp [Device.afterOnRead, Device.setAcc, Device.callSetReadSize, Device.record, Device.ret, Memory.getRun]

/-- Settles O33: the one call of the handler is the SEND, which runs on the device as ON_READ leaves it. -/
theorem sendInsideOnRead : Obligations.SendInsideOnRead := by
  intro s k d bs a rest f form type count data hd ho hf hwf h2 hl ha hcalls hidle hdata
  obtain ⟨m', happended, hrun⟩ := deliverRunsHandlerInside s k d bs a rest f hd ho hf hwf h2 hl ha
  refine ⟨⟨m', happended, fun hgot => ?_⟩, ?_⟩
  · intro made
    have hmade := State.setDevice_get made hd
    obtain ⟨writes, htrace, hwrites⟩ := made.send_trace form type count data
    have hsend := runCalls_send (reading := some k) (form := form) (type := type) hmade ho hidle hdata
    obtain ⟨-, hdeliver⟩ := hrun hgot _ _ (by rw [hcalls]; exact hsend) (State.setDevice_get _ hmade)
    refine ⟨made.send form type count data, writes, ?_, made.send_rx .., (made.send_isOpen ..).trans ho, htrace, hwrites, ?_⟩
    · exact (opSend_runs hmade ho hidle hdata).trans (by rw [State.setDevice_setDevice])
    · rw [hdeliver, State.setDevice_setDevice, State.setDevice_setDevice, Device.record_trace, htrace]
      simp [Device.record]
  · rintro rfl hgot
    have h2 : 2 ≤ d.rx.acc.toNat := h2
    exact (execOnRead_ready hd ho hf h2 hgot).trans
      ((opDeliver_nil hd ho hf hl).trans (afterAppend_complete h2 hgot)).symm

end Sys2Proof.Machine
end

section
/-! The reserved frame as FEED delivers it (R85, V25), and the step with no request waiting (R87). -/

namespace Sys2Proof.Machine

/-- With the header of the reserved frame alone in, 255 bytes are missing (R62, R85). -/
theorem Device.Holds.reservedHeader {d : Device} {type : Byte} (h : d.Holds [type, 0xFF#8]) :
    2 ≤ d.rx.acc.toNat ∧ d.frameLength = 255 ∧ d.got = 0 :=
  ⟨h.acc.ge, h.frameLength_reserved (rest := []) (value := []) rfl (by simp), by simp [Device.got, h.acc]⟩

/-- The header of the reserved frame is a delivery that requests 255 bytes (R76, R85). -/
theorem opDeliver_reservedHeader {k : Nat} {s : State} {d : Device} (h : d.Holds []) (hd : s.devices[k]? = some d) (type : Byte) :
    (d.headerIn type 255).Holds [type, 0xFF#8] ∧ (d.headerIn type 255).nextReadSize.toNat = 255 ∧
      opDeliver k [type, 0xFF#8] s = .next (s.setDevice k (d.headerIn type 255)) := by
  have happended := h.append (bs := [type, 0xFF#8]) (by simp)
  have hin : (d.headerIn type 255).Holds [type, 0xFF#8] := happended.of_same rfl rfl
  refine ⟨hin, ?_, ?_⟩
  · obtain ⟨h2, hL, hgot⟩ := hin.reservedHeader
    rw [Device.nextReadSize_payload hin.isOpen hin.unfaulted h2 (by omega), hL, hgot]
    rfl
  · obtain ⟨h2, hL, hgot⟩ := happended.reservedHeader
    rw [h.opDeliver_eq hd (by simp), afterAppend_awaitsPayload h2 (by omega), hL, hgot]
    rfl

/-- Settles O36: the header is delivered and 255 bytes requested, and their delivery goes over the capacity. -/
theorem reservedFrameOverflows : Obligations.ReservedFrameOverflows := by
  intro s k d type value hd ho hf hacc hwf hvalue
  have hempty : d.Holds [] := ⟨ho, hf, hwf, by rw [hacc]; rfl⟩
  obtain ⟨hin, hsize, hdeliver⟩ := opDeliver_reservedHeader hempty hd type
  have hset := State.setDevice_get (d.headerIn type 255) hd
  have hheader : exec (.frameRsvdL255 k type value) s =
      andThen (opDeliver k [type, 0xFF#8] s) (feed k (value.length + 2) value) := by
    refine feed_delivers (bs := [type, 0xFF#8]) (rest := value) hempty hd (by simp) ?_
    rw [Device.nextReadSize_header ho hf (by simp [hacc]), hacc]
    rfl
  have hpayload := feed_delivers (bs := value) (rest := []) (fuel := value.length + 1) hin hset
    (List.ne_nil_of_length_pos (by omega)) (hsize.trans hvalue.symm)
  rw [List.append_nil] at hpayload
  refine ⟨_, Memory.putRun_appended hwf (by simp), ?_⟩
  rw [hheader, hdeliver, andThen_next, hpayload,
    opDeliver_overflows hset hin.isOpen hin.unfaulted (by rw [hin.acc, hvalue]; simp), andThen_next, feed_nil,
    State.setDevice_setDevice]
  simp [Device.headerIn, byteOf, hacc, Device.consume, Device.append, Device.callSetReadSize, Device.record, Device.ret, Device.raise]

theorem fetch_of_inbox_nil {s : State} (hinbox : s.inbox = []) : fetch s = none := by
  simp only [fetch, hinbox]

/-- Settles O7: there is nothing to fetch. -/
theorem stepParksWithoutRequest : Obligations.StepParksWithoutRequest := by
  intro s hinbox
  simp only [step, fetch_of_inbox_nil hinbox]

end Sys2Proof.Machine
end

section
/-! The chunks of a SEND (R101 to R103): the first `count` bytes of its data, cut into pieces of 254 bytes, one packet for each piece. -/

namespace Sys2Proof.Machine

theorem le_mul_chunkCount (count : Nat) : count ≤ 254 * chunkCount count := by
  simp only [chunkCount, Config.maxPayload]
  omega

/-- Every chunk but the last is full (R102). -/
theorem mul_le_of_lt_chunkCount {count i : Nat} (h : i + 1 < chunkCount count) : 254 * (i + 1) ≤ count := by
  simp only [chunkCount, Config.maxPayload] at h
  omega

theorem chunkCount_of_gt {count : Nat} (h : 254 < count) : chunkCount count = chunkCount (count - 254) + 1 := by
  simp only [chunkCount, Config.maxPayload]
  omega

theorem chunkCount_of_le {count : Nat} (h : count ≤ 254) : chunkCount count = 1 := by
  simp only [chunkCount, Config.maxPayload]
  omega

@[simp] theorem chunks_length (data : List Byte) (count : Nat) : (chunks data count).length = chunkCount count := by
  simp [chunks]

/-- The chunks are consecutive pieces of the data, the last cut off at `count` (R102, R103). -/
theorem chunks_eq_pieces (data : List Byte) (count : Nat) :
    chunks data count = (List.range (chunkCount count)).map fun i => ((data.take count).drop (254 * i)).take 254 := by
  simp only [chunks, readSData, chunkOffset, chunkLength, Config.maxPayload, List.drop_take, List.take_take]

/-- Consecutive pieces, joined. -/
theorem flatten_pieces (bytes : List Byte) (w n : Nat) :
    ((List.range n).map fun i => (bytes.drop (w * i)).take w).flatten = bytes.take (w * n) := by
  induction n with
  | zero => simp
  | succ n ih => simp [List.range_succ, ih, Nat.mul_succ, List.take_add]

/-- SEND reads nothing past the first `count` bytes. -/
theorem chunks_take (data : List Byte) (count : Nat) : chunks (data.take count) count = chunks data count := by
  simp only [chunks_eq_pieces, List.take_take, Nat.min_self]

/-- A SEND that fits one packet (R101, R107). -/
theorem chunks_of_le {data : List Byte} {count : Nat} (h : count ≤ 254) : chunks data count = [data.take count] := by
  simp [chunks_eq_pieces, chunkCount_of_le h, List.take_take, h]

/-- A SEND that needs more than one packet: the first is full, the rest are those of what is left (R102). -/
theorem chunks_of_gt {data : List Byte} {count : Nat} (h : 254 < count) :
    chunks data count = data.take 254 :: chunks (data.drop 254) (count - 254) := by
  rw [chunks_eq_pieces, chunks_eq_pieces, chunkCount_of_gt h, List.range_succ_eq_map, List.map_cons, List.map_map]
  refine congrArg₂ _ ?_ (List.map_congr_left fun i _ => ?_)
  · simp [List.take_take, h.le]
  · simp [Nat.mul_succ, List.drop_take, List.drop_drop, Nat.add_comm, Nat.sub_sub]

/-- Settles O42: joined, the pieces are the data up to 254 times their number, which is at least `count`. -/
theorem chunksAreTheData : Obligations.ChunksAreTheData := by
  intro data count hcount
  refine ⟨?_, chunks_length data count, fun c hc => chunks_length_le hc, fun c hc => ?_⟩
  · rw [chunks_eq_pieces, flatten_pieces, List.take_take, Nat.min_eq_right (le_mul_chunkCount count)]
  · obtain ⟨i, hi, rfl⟩ := List.mem_iff_getElem.mp hc
    have hfull : 254 * (i + 1) ≤ count := mul_le_of_lt_chunkCount (by rw [List.length_dropLast, chunks_length] at hi; omega)
    simp only [chunks_eq_pieces, List.getElem_dropLast, List.getElem_map, List.getElem_range, List.length_take, List.length_drop]
    omega

/-! ## Packets -/

/-- Packet `i` of a SEND: `[type, len_i]` and the `len_i` bytes of the data from `254 i` on (R102). -/
def packet (type : Byte) (data : List Byte) (count i : Nat) : List Byte :=
  type :: BitVec.ofNat 8 (min 254 (count - 254 * i)) :: (data.drop (254 * i)).take (min 254 (count - 254 * i))

section
variable {type : Byte} {data : List Byte} {count : Nat} (hcount : count ≤ data.length)
include hcount

/-- The packets that SEND writes are the frames of its chunks (R50, R101). -/
theorem frames_of_chunks :
    (chunks data count).map (frameBytes type) = (List.range (chunkCount count)).map (packet type data count) := by
  rw [chunks, List.map_map]
  refine List.map_congr_left fun i _ => ?_
  have hlength : (readSData data (chunkOffset i) (chunkLength count i)).length = chunkLength count i := by
    simp only [readSData, chunkLength, chunkOffset, Config.maxPayload, List.length_take, List.length_drop]
    omega
  simp only [Function.comp_apply, frameBytes, hlength]
  rfl

/-- The packets up to one of the chunks. -/
theorem frames_of_split {written more : List (List Byte)} {c : List Byte} (h : chunks data count = written ++ c :: more) :
    written.map (frameBytes type) = (List.range written.length).map (packet type data count) ∧
      frameBytes type c = packet type data count written.length := by
  have hframes := frames_of_chunks (type := type) hcount
  have hlength : chunkCount count = written.length + (more.length + 1) := by rw [← chunks_length data, h]; simp
  rw [h, hlength, List.range_add, List.map_append, List.map_append] at hframes
  obtain ⟨hwritten, hrest⟩ := List.append_inj hframes (by simp)
  rw [List.map_cons, List.range_succ_eq_map, List.map_cons, List.map_cons] at hrest
  exact ⟨hwritten, (List.cons.inj hrest).1⟩

end

end Sys2Proof.Machine
end

section
/-! The atomic SEND (R100 to R107): the packets are written one after another as long as the transport accepts them, and the first failure
ends it. -/

namespace Sys2Proof.Machine

/-! ## The loop over the chunks -/

/-- The device after TX_WRITEs of `packets`, all accepted, with `rest` and `f` left of the answers (R104). -/
def Device.wrote (d : Device) (packets : List (List Byte)) (rest : List WriteAnswer) (f : FreeKey) : Device :=
  { d with
    tx := { d.tx with txs := d.tx.txs ++ packets.flatten }
    trace := d.trace ++ packets.map (.txWrite · true)
    env := { d.env with txWrite := rest }
    fresh := f }

/-- The device after a TX_WRITE of `bytes` that failed with `sent` of them on the wire, which ends the SEND (R105). -/
def Device.aborted (d : Device) (bytes : List Byte) (sent : Nat) (rest : List WriteAnswer) (f : FreeKey) : Device :=
  { d with
    tx := { d.tx with txs := d.tx.txs ++ bytes.take sent }
    trace := d.trace ++ [.txWrite bytes false]
    env := { d.env with txWrite := rest }
    fresh := f
    result := some Config.err }

theorem Device.wrote_nil (d : Device) : d.wrote [] d.env.txWrite d.fresh = d := by simp [Device.wrote]

theorem Device.wrote_wrote (d : Device) (packets packets' : List (List Byte)) (rest rest' : List WriteAnswer) (f f' : FreeKey) :
    (d.wrote packets rest f).wrote packets' rest' f' = d.wrote (packets ++ packets') rest' f' := by
  simp [Device.wrote]

section
variable {d : Device} {type : Byte} {c : List Byte} {cs more : List (List Byte)} {rest : List WriteAnswer} {f : FreeKey}

/-- Some answer is always taken: the first of the list or a free value (R54). -/
theorem Device.exists_writeAnswers (d : Device) : ∃ a rest f, WriteAnswers d.env.txWrite d.fresh a rest f := by
  cases h : d.env.txWrite with
  | nil => exact ⟨_, _, _, .inr ⟨rfl, rfl, rfl, rfl⟩⟩
  | cons a rest => exact ⟨a, rest, d.fresh, .inl ⟨rfl, rfl⟩⟩

/-- A TX_WRITE that is accepted (R57). -/
theorem Device.callTxWrite_accepted (ha : WriteAnswers d.env.txWrite d.fresh .accepted rest f) (bytes : List Byte) :
    d.callTxWrite bytes = (true, d.wrote [bytes] rest f) := by
  simp [Device.callTxWrite_of ha, Device.wrote, wireBytes]

/-- A chunk whose write is accepted (R104). -/
theorem Device.sendChunks_accepted (ha : WriteAnswers d.env.txWrite d.fresh .accepted rest f) :
    d.sendChunks type (c :: cs) = (d.wrote [frameBytes type c] rest f).sendChunks type cs := by
  simp [Device.sendChunks, Device.callTxWrite_accepted ha]

/-- A chunk whose write fails (R105). -/
theorem Device.sendChunks_failed {sent : Nat} (ha : WriteAnswers d.env.txWrite d.fresh (.failure sent) rest f) :
    d.sendChunks type (c :: cs) = d.aborted (frameBytes type c) sent rest f := by
  simp [Device.sendChunks, Device.callTxWrite_of ha, Device.aborted, wireBytes, Device.ret]

/-- Chunks for which the list holds as many acceptances (R101, R104). -/
theorem Device.sendChunks_all_accepted (h : d.env.txWrite = List.replicate cs.length .accepted ++ rest) :
    d.sendChunks type (cs ++ more) = (d.wrote (cs.map (frameBytes type)) rest d.fresh).sendChunks type more := by
  induction cs generalizing d with
  | nil =>
    obtain rfl : d.env.txWrite = rest := h
    rw [List.map_nil, Device.wrote_nil, List.nil_append]
  | cons c cs ih =>
    rw [List.cons_append, Device.sendChunks_accepted (.inl ⟨h, rfl⟩), ih rfl, Device.wrote_wrote]
    rfl

/-- Whatever the transport answers: all chunks are written, or those before the one whose write fails (R104, R105, R106). -/
theorem Device.sendChunks_cases (d : Device) (type : Byte) (cs : List (List Byte)) :
    (∃ rest f, d.sendChunks type cs = (d.wrote (cs.map (frameBytes type)) rest f).ret Config.ok) ∨
    (∃ written c more sent rest f, cs = written ++ c :: more ∧
      d.sendChunks type cs = (d.wrote (written.map (frameBytes type)) rest f).aborted (frameBytes type c) sent rest f) := by
  induction cs generalizing d with
  | nil => exact .inl ⟨_, _, congrArg (Device.ret · Config.ok) d.wrote_nil.symm⟩
  | cons c cs ih =>
    obtain ⟨a, rest, f, ha⟩ := d.exists_writeAnswers
    cases a with
    | accepted =>
      rw [Device.sendChunks_accepted ha]
      rcases ih (d.wrote [frameBytes type c] rest f) with ⟨rest', f', h⟩ | ⟨written, c', more, sent, rest', f', rfl, h⟩
      · exact .inl ⟨rest', f', by rw [h, Device.wrote_wrote]; rfl⟩
      · exact .inr ⟨c :: written, c', more, sent, rest', f', rfl, by rw [h, Device.wrote_wrote]; rfl⟩
    | failure sent =>
      refine .inr ⟨[], c, cs, sent, rest, f, rfl, ?_⟩
      simp [Device.sendChunks_failed ha, Device.wrote, Device.aborted]

end

/-! ## SEND -/

/-- SEND in its atomic form is the loop over its chunks (R100). -/
theorem exec_send_atomic {s : State} {k : Nat} {d e : Device} {type : Byte} {count : Count} {data : List Byte}
    (hd : s.devices[k]? = some d) (ho : d.isOpen = true) (hidle : d.tx.busy = false) (hdata : count.toNat ≤ data.length)
    (he : d.sendChunks type (chunks data count.toNat) = e) :
    exec (.send k .atomic type count data) s = .next (s.setDevice k e) :=
  he ▸ opSend_runs hd ho hidle hdata

/-- Settles O38: the answers accept every chunk, and the chunks' frames are the packets. -/
theorem sendAllAccepted : Obligations.SendAllAccepted := by
  intro s k d type count data rest hd ho hidle hdata hanswers
  have haccepted : d.env.txWrite = List.replicate (chunks data count.toNat).length .accepted ++ rest := by
    rw [chunks_length]
    exact hanswers
  have hsend := Device.sendChunks_all_accepted (type := type) (more := []) haccepted
  rw [List.append_nil, frames_of_chunks hdata] at hsend
  exact exec_send_atomic hd ho hidle hdata hsend

/-- Settles O39: the chunks before chunk `j` are accepted, and chunk `j` then fails. -/
theorem sendAbortsOnFailure : Obligations.SendAbortsOnFailure := by
  intro s k d type count data j sent rest hd ho hidle hdata hj hanswers
  have hlt : j < (chunks data count.toNat).length := hj.trans_eq (chunks_length data count.toNat).symm
  obtain ⟨written, c, more, hchunks, rfl⟩ :
      ∃ written c more, chunks data count.toNat = written ++ c :: more ∧ written.length = j :=
    ⟨(chunks data count.toNat).take j, _, _, by rw [← List.drop_eq_getElem_cons hlt, List.take_append_drop],
      List.length_take_of_le hlt.le⟩
  obtain ⟨hwritten, hfailed⟩ := frames_of_split (type := type) hdata hchunks
  have hsend : d.sendChunks type (chunks data count.toNat) =
      (d.wrote (written.map (frameBytes type)) (.failure sent :: rest) d.fresh).aborted (frameBytes type c) sent rest d.fresh := by
    rw [hchunks, Device.sendChunks_all_accepted hanswers, Device.sendChunks_failed (.inl ⟨rfl, rfl⟩)]
    rfl
  rw [hwritten, hfailed, Device.wrote, Device.aborted, List.map_map] at hsend
  exact exec_send_atomic hd ho hidle hdata hsend

/-- Writes of which the last alone fails, as one list (R105). -/
theorem map_range_last_fails {α : Type} (event : Nat → Bool → α) (n : Nat) :
    (List.range (n + 1)).map (fun i => event i (decide (i + 1 < n + 1) || false)) =
      (List.range n).map (event · true) ++ [event n false] := by
  have hbefore : (List.range n).map (fun i => event i (decide (i < n))) = (List.range n).map (event · true) :=
    List.map_congr_left fun i hi => by rw [decide_eq_true (List.mem_range.mp hi)]
  simp [List.range_succ, hbefore]

/-- Settles O40: all packets are written, or those up to and with the one whose write fails. -/
theorem sendCompletes : Obligations.SendCompletes := by
  intro s k d type count data hd ho hidle hdata
  rcases d.sendChunks_cases type (chunks data count.toNat) with
    ⟨rest, f, hsend⟩ | ⟨written, c, more, sent, rest, f, hchunks, hsend⟩
  · rw [frames_of_chunks hdata, Device.wrote, List.map_map] at hsend
    refine ⟨chunkCount count.toNat, true, (d.sendChunks type (chunks data count.toNat)).tx.txs, rest, f,
      Nat.le_max_left _ _, le_rfl, fun _ => rfl, exec_send_atomic hd ho hidle hdata ?_⟩
    rw [hsend]
    simp only [Bool.or_true]
    rfl
  · obtain ⟨hwritten, hfailed⟩ := frames_of_split (type := type) hdata hchunks
    have hlength : written.length + 1 ≤ chunkCount count.toNat := by rw [← chunks_length data, hchunks]; simp
    have htrace := map_range_last_fails (fun i => Event.txWrite (packet type data count.toNat i)) written.length
    simp only [hwritten, hfailed, Device.wrote, Device.aborted, List.map_map, Function.comp_def, List.append_assoc,
      ← htrace] at hsend
    refine ⟨written.length + 1, false, (d.sendChunks type (chunks data count.toNat)).tx.txs, rest, f, Nat.le_add_left _ _, hlength, nofun,
      exec_send_atomic hd ho hidle hdata ?_⟩
    rw [hsend]
    rfl

/-- Settles O41: without a byte to send there is one chunk, the empty one. -/
theorem zeroLengthSend : Obligations.ZeroLengthSend := by
  intro s k d type data a rest f hd ho hidle ha
  refine exec_send_atomic hd ho hidle (Nat.zero_le _) ?_
  have hchunks : chunks data (0#16).toNat = [[]] := chunks_of_le (Nat.zero_le 254)
  rw [hchunks]
  cases a with
  | accepted => rw [Device.sendChunks_accepted ha]; rfl
  | failure sent => rw [Device.sendChunks_failed ha]; rfl

end Sys2Proof.Machine
end

section
/-! The sender and the receive datapath (R39, R100), and the two forms of SEND (R111): which packets SEND writes and what it reports depends
on nothing but its arguments and the answers, so SEND does the same whatever the other registers hold. -/

namespace Sys2Proof.Machine

/-! ## SEND reads no register -/

/-- The device with other registers and another result; `TXS`, the trace and the answers stay. -/
def Device.withRegisters (d : Device) (rx : Rx) (tx : Tx) (result : Option Status) : Device :=
  { d with rx := rx, tx := { tx with txs := d.tx.txs }, result := result }

theorem Device.callTxWrite_withRegisters (d : Device) (rx : Rx) (tx : Tx) (r : Option Status) (bytes : List Byte) :
    (d.withRegisters rx tx r).callTxWrite bytes = ((d.callTxWrite bytes).1, (d.callTxWrite bytes).2.withRegisters rx tx r) := by
  obtain ⟨a, rest, f, ha⟩ := d.exists_writeAnswers
  rw [Device.callTxWrite_of ha, Device.callTxWrite_of (d := d.withRegisters rx tx r) ha]
  rfl

/-- The loop over the chunks reads no register and sets none but the result (R39, R100). -/
theorem Device.sendChunks_withRegisters (type : Byte) (cs : List (List Byte)) (d : Device) (rx : Rx) (tx : Tx)
    (r : Option Status) :
    (d.withRegisters rx tx r).sendChunks type cs = (d.sendChunks type cs).withRegisters rx tx (d.sendChunks type cs).result := by
  induction cs generalizing d with
  | nil => rfl
  | cons c cs ih =>
    simp only [Device.sendChunks, Device.callTxWrite_withRegisters]
    split
    · exact ih _
    · rfl

/-- SEND in both forms does the same whatever the receive datapath holds (R39). -/
theorem Device.send_withRx (d : Device) (form : SendForm) (type : Byte) (count : Count) (data : List Byte) (rx : Rx) :
    ({ d with rx := rx } : Device).send form type count data = { d.send form type count data with rx := rx } := by
  cases form with
  | atomic =>
    obtain ⟨txs, htx⟩ := Device.sendChunks_tx type (chunks data count.toNat) d
    have hsend := Device.sendChunks_withRegisters type (chunks data count.toNat) d rx d.tx d.result
    refine hsend.trans ?_
    simp only [Device.withRegisters, Device.send, htx]
  | start => rfl

/-! ## Receiving leaves the sender -/

/-- `open`, the binding and the sender's registers are as before. -/
structure KeepsSender (d e : Device) : Prop where
  tx : e.tx = d.tx
  isOpen : e.isOpen = d.isOpen
  binding : e.binding = d.binding

section
variable {k : Nat} {s t : State} {d d' : Device}

theorem keepsSender_setDevice {e : Device} (hd : s.devices[k]? = some d) (he : (s.setDevice k d').devices[k]? = some e)
    (h : KeepsSender d d') : KeepsSender d e := by
  rw [State.setDevice_get d' hd] at he
  cases he
  exact h

/-- The hand-over of a packet to a handler that invokes nothing. -/
theorem handOver_keepsSender {e : Device} (h : handOver k d' s = .next t) (hd : s.devices[k]? = some d)
    (hquiet : d'.QuietReads) (hkeeps : KeepsSender d d') (he : t.devices[k]? = some e) : KeepsSender d e := by
  obtain ⟨hl, -⟩ := handOver_eq_next h
  have hcalls : d'.takeOnRead.1.calls = [] := d'.takeOnRead_calls.elim (hquiet _) id
  cases (handOver_quiet hd hl hcalls).symm.trans h
  refine keepsSender_setDevice hd he ⟨?_, ?_, ?_⟩
  · simpa [Device.afterOnRead, Device.madeOnRead] using hkeeps.tx
  · simpa [Device.afterOnRead, Device.madeOnRead] using hkeeps.isOpen
  · simpa [Device.afterOnRead, Device.madeOnRead] using hkeeps.binding

theorem opDeliver_keepsSender {bs : List Byte} {e : Device} (h : opDeliver k bs s = .next t) (hd : s.devices[k]? = some d)
    (hquiet : d.QuietReads) (he : t.devices[k]? = some e) : KeepsSender d e := by
  obtain ⟨d₀, hd₀, ho, h⟩ := withOpen_eq_next h
  obtain rfl : d = d₀ := by simpa [hd] using hd₀
  split at h
  · cases h; exact keepsSender_setDevice hd he ⟨rfl, rfl, rfl⟩
  · split at h
    · cases h; exact keepsSender_setDevice hd he ⟨rfl, rfl, rfl⟩
    · unfold afterAppend at h
      split at h
      · cases h; exact keepsSender_setDevice hd he ⟨rfl, rfl, rfl⟩
      · split at h
        · cases h; exact keepsSender_setDevice hd he ⟨rfl, rfl, rfl⟩
        · split at h
          · cases h; exact keepsSender_setDevice hd he ⟨rfl, rfl, rfl⟩
          · exact handOver_keepsSender h hd hquiet ⟨rfl, rfl, rfl⟩ he

theorem execDeliverFail_keepsSender {e : Device} (h : execDeliverFail k s = .next t) (hd : s.devices[k]? = some d)
    (he : t.devices[k]? = some e) : KeepsSender d e := by
  obtain ⟨d₀, hd₀, ho, h⟩ := withOpen_eq_next h
  obtain rfl : d = d₀ := by simpa [hd] using hd₀
  split at h
  · cases h; exact keepsSender_setDevice hd he ⟨rfl, rfl, rfl⟩
  · cases h; exact keepsSender_setDevice hd he ⟨rfl, rfl, rfl⟩

theorem execOnRead_keepsSender {e : Device} (h : execOnRead k s = .next t) (hd : s.devices[k]? = some d)
    (hquiet : d.QuietReads) (he : t.devices[k]? = some e) : KeepsSender d e := by
  obtain ⟨d₀, hd₀, ho, h⟩ := withOpen_eq_next h
  obtain rfl : d = d₀ := by simpa [hd] using hd₀
  split at h
  · exact handOver_keepsSender h hd hquiet ⟨rfl, rfl, rfl⟩ he
  · cases h

end

/-- Settles O60: SEND reads nothing of the receive datapath, and the operations of the receive machine leave the sender. -/
theorem datapathsIndependent : Obligations.DatapathsIndependent := by
  intro s t k d e hd he
  refine ⟨fun form type count data rx h => ?_, fun i bs hi hquiet h => ?_⟩
  · obtain ⟨d₀, hd₀, ho, hidle, hdata, rfl⟩ := opSend_eq_next h
    obtain rfl : d = d₀ := by simpa [hd] using hd₀
    rw [State.setDevice_get _ hd] at he
    cases he
    refine ⟨d.send_rx form type count data, ?_⟩
    have hrun := opSend_runs (form := form) (type := type) (State.setDevice_get { d with rx := rx } hd) ho hidle hdata
    rw [Device.send_withRx, State.setDevice_setDevice] at hrun
    rwa [State.setDevice_setDevice]
  · obtain ⟨htx, ho, hbinding⟩ : KeepsSender d e := by
      rcases hi with rfl | rfl | rfl
      · exact opDeliver_keepsSender h hd hquiet he
      · exact execDeliverFail_keepsSender h hd he
      · exact execOnRead_keepsSender h hd hquiet he
    exact ⟨htx, ho, hbinding⟩

end Sys2Proof.Machine
end

section
/-! The two forms of SEND agree (R111): from any state of the stepwise sender on, the TX_WRITE steps that are left do what the atomic SEND does
with the bytes that are left. -/

namespace Sys2Proof.Machine

/-- The device with other registers of the sender; `TXS` stays. -/
def Device.withSender (d : Device) (tx : Tx) : Device := d.withRegisters d.rx tx d.result

@[simp] theorem Device.withSender_tx (d : Device) (tx : Tx) : (d.withSender tx).tx = { tx with txs := d.tx.txs } := rfl

@[simp] theorem Device.withSender_withSender (d : Device) (tx tx' : Tx) : (d.withSender tx).withSender tx' = d.withSender tx' := rfl

theorem Device.sendChunks_withSender (type : Byte) (cs : List (List Byte)) (d : Device) (tx : Tx) :
    (d.withSender tx).sendChunks type cs = (d.sendChunks type cs).withSender tx := by
  rw [Device.withSender, Device.sendChunks_withRegisters, Device.withSender, Device.sendChunks_rx]

/-- The chunks that the SEND in progress has left: `SDATA` from `tx_off` on (R110). -/
def Device.pending (d : Device) : List (List Byte) := chunks (d.tx.sdata.drop d.tx.off.toNat) d.tx.rem.toNat

/-- The atomic SEND of what is left. -/
def Device.sendPending (d : Device) : Device := d.sendChunks d.tx.type d.pending

section
variable {d : Device} {a : WriteAnswer} {rest : List WriteAnswer} {f : FreeKey}

theorem Device.pending_last (h : d.tx.rem.toNat ≤ 254) : d.pending = [d.nextChunk] := by
  simp [Device.pending, chunks_of_le h, Device.nextChunk, readSData, Device.nextChunkLength, h]

theorem Device.pending_more (h : 254 < d.tx.rem.toNat) :
    d.pending = d.nextChunk :: chunks (d.tx.sdata.drop (d.tx.off.toNat + 254)) (d.tx.rem.toNat - 254) := by
  simp [Device.pending, chunks_of_gt h, Device.nextChunk, readSData, Device.nextChunkLength, h.le]

/-- The next chunk is the first of those left. -/
theorem Device.exists_pending (d : Device) : ∃ more, d.pending = d.nextChunk :: more := by
  rcases Nat.lt_or_ge 254 d.tx.rem.toNat with h | h
  · exact ⟨_, Device.pending_more h⟩
  · exact ⟨_, Device.pending_last h⟩

/-- A step whose write fails ends both forms of the SEND (R105, R110). -/
theorem Device.sendChunk_failed {sent : Nat} (ha : WriteAnswers d.env.txWrite d.fresh (.failure sent) rest f) :
    d.sendChunk = d.sendPending.withSender { d.tx with busy := false, sdata := [] } := by
  obtain ⟨more, hpending⟩ := d.exists_pending
  rw [Device.sendPending, hpending, Device.sendChunks_failed ha, Device.sendChunk, Device.callTxWrite_of ha]
  rfl

/-- The step that writes the last chunk (R106, R110). -/
theorem Device.sendChunk_last (ha : WriteAnswers d.env.txWrite d.fresh .accepted rest f) (h : d.tx.rem.toNat ≤ 254) :
    ∃ tx : Tx, tx.busy = false ∧ d.sendChunk = d.sendPending.withSender tx := by
  refine ⟨{ d.tx with busy := false, off := BitVec.ofNat 16 (d.tx.off.toNat + d.nextChunkLength), rem := 0#16, sdata := [] }, rfl, ?_⟩
  rw [Device.sendPending, Device.pending_last h, Device.sendChunks_accepted ha, Device.sendChunk, Device.callTxWrite_accepted ha]
  exact Device.afterChunk_last (Nat.min_eq_right h)

/-- A step with chunks to come (R110). -/
theorem Device.sendChunk_more (ha : WriteAnswers d.env.txWrite d.fresh .accepted rest f) (h : 254 < d.tx.rem.toNat) :
    d.sendChunk = (d.wrote [frameBytes d.tx.type d.nextChunk] rest f).withSender
      { d.tx with off := BitVec.ofNat 16 (d.tx.off.toNat + 254), rem := BitVec.ofNat 16 (d.tx.rem.toNat - 254) } := by
  rw [Device.sendChunk, Device.callTxWrite_accepted ha, show d.nextChunkLength = 254 from Nat.min_eq_left h.le]
  exact Device.afterChunk_more h

/-- After a step with chunks to come the sender has left what the atomic SEND has left after its first chunk. -/
theorem Device.sendChunk_leaves (ha : WriteAnswers d.env.txWrite d.fresh .accepted rest f) (hb : d.tx.busy = true)
    (hsound : d.SenderSound) (h : 254 < d.tx.rem.toNat) :
    d.sendChunk.tx.busy = true ∧ d.sendChunk.tx.rem.toNat = d.tx.rem.toNat - 254 ∧
      ∀ tx, d.sendChunk.sendPending.withSender tx = d.sendPending.withSender tx := by
  obtain ⟨-, hsum, hlt⟩ := hsound hb
  have hrem : (BitVec.ofNat 16 (d.tx.rem.toNat - 254)).toNat = d.tx.rem.toNat - 254 := by
    rw [BitVec.toNat_ofNat]
    omega
  have hoff : (BitVec.ofNat 16 (d.tx.off.toNat + 254)).toNat = d.tx.off.toNat + 254 := by
    rw [BitVec.toNat_ofNat]
    omega
  have hstep := Device.sendChunk_more ha h
  have hpending : d.sendChunk.pending = chunks (d.tx.sdata.drop (d.tx.off.toNat + 254)) (d.tx.rem.toNat - 254) := by
    simp only [Device.pending, hstep, Device.withSender_tx, hoff, hrem]
  refine ⟨by rw [hstep]; exact hb, by rw [hstep]; exact hrem, fun tx => ?_⟩
  rw [Device.sendPending, Device.sendPending, hpending, Device.pending_more h, Device.sendChunks_accepted ha, hstep,
    Device.sendChunks_withSender, Device.withSender_withSender]
  rfl

end

/-! ## The steps -/

section
variable {k : Nat} {s : State} {d : Device}

theorem runWrites_idle (hd : s.devices[k]? = some d) (hidle : d.tx.busy = false) (n : Nat) : runWrites k n s = .next s := by
  cases n with
  | zero => rfl
  | succ n => simp [runWrites, hd, hidle]

theorem runWrites_busy (hd : s.devices[k]? = some d) (hb : d.tx.busy = true) (hsound : d.SenderSound) (n : Nat) :
    runWrites k (n + 1) s = runWrites k n (s.setDevice k d.sendChunk) := by
  have hstep : exec (.txWrite k) s = .next (s.setDevice k d.sendChunk) :=
    opTxWrite_runs hd (hsound hb).1 hb (hsound.nextChunk_length hb)
  simp [runWrites, hd, hb, hstep]

/-- From any state of a SEND in progress, as many steps as there are chunks left end it as the atomic SEND of what is left (R111). -/
theorem runWrites_sendPending (n : Nat) (hd : s.devices[k]? = some d) (hb : d.tx.busy = true) (hsound : d.SenderSound)
    (hn : chunkCount d.tx.rem.toNat = n) :
    ∃ tx : Tx, tx.busy = false ∧ runWrites k n s = .next (s.setDevice k (d.sendPending.withSender tx)) := by
  induction n generalizing s d with
  | zero => exact absurd hn (Nat.ne_of_gt (Nat.lt_of_lt_of_le Nat.one_pos (Nat.le_max_left _ _)))
  | succ n ih =>
    rw [runWrites_busy hd hb hsound]
    have hset := State.setDevice_get d.sendChunk hd
    obtain ⟨a, rest, f, ha⟩ := d.exists_writeAnswers
    cases a with
    | failure sent =>
      have hstep := Device.sendChunk_failed ha
      rw [runWrites_idle hset (by rw [hstep]; rfl), hstep]
      exact ⟨_, rfl, rfl⟩
    | accepted =>
      rcases Nat.lt_or_ge 254 d.tx.rem.toNat with hmore | hlast
      · obtain ⟨hb', hrem, hpending⟩ := Device.sendChunk_leaves ha hb hsound hmore
        have hn' : chunkCount d.sendChunk.tx.rem.toNat = n := by
          rw [chunkCount_of_gt hmore] at hn
          rw [hrem, Nat.succ.inj hn]
        obtain ⟨tx, hidle, hrun⟩ := ih hset hb' (Device.sendChunk_senderSound hsound) hn'
        exact ⟨tx, hidle, by rw [hrun, hpending, State.setDevice_setDevice]⟩
      · obtain ⟨tx, hidle, hstep⟩ := Device.sendChunk_last ha hlast
        exact ⟨tx, hidle, by rw [runWrites_idle hset (by rw [hstep]; exact hidle), hstep]⟩

end

/-- Settles O45: SEND_START leaves all chunks pending and touches nothing that the loop over them reads. -/
theorem stepwiseSendAgrees : Obligations.StepwiseSendAgrees := by
  intro s k d type count data hd ho hidle hdata
  have hset := State.setDevice_get (d.send .start type count data) hd
  obtain ⟨tx, hidle', hrun⟩ := runWrites_sendPending _ hset rfl (Device.send_senderSound ho hidle hdata) rfl
  have hsame : (d.send .start type count data).sendPending.withSender tx =
      (d.sendChunks type (chunks data count.toNat)).withSender tx := by
    have hpending : (d.send .start type count data).pending = chunks data count.toNat := chunks_take data count.toNat
    have hsend := Device.sendChunks_withRegisters type (chunks data count.toNat) d d.rx
      { d.tx with busy := true, type := type, off := 0#16, rem := count, sdata := data.take count.toNat } none
    rw [Device.sendPending, hpending]
    refine (congrArg (Device.withSender · tx) hsend).trans ?_
    simp [Device.withSender, Device.withRegisters]
  rw [hsame, State.setDevice_setDevice] at hrun
  exact ⟨_, (d.sendChunks type (chunks data count.toNat)).withSender tx, exec_send_atomic hd ho hidle hdata rfl,
    (congrArg (andThen · _) (opSend_runs hd ho hidle hdata)).trans hrun, rfl, rfl, rfl, rfl, rfl, hidle', rfl,
    (Device.sendChunks_isOpen type _ d).trans ho, rfl⟩

end Sys2Proof.Machine
end

section
/-! OPEN on a closed device, line by line of R120: the hooks (R121), then the three answers it takes, each with its refusal (R122). -/

namespace Sys2Proof.Machine

section
variable {d : Device} {p b c h : Token} {handles : List (Option Token)} {allocs installs : List Bool} {f : FreeKey}

/-- Line 2: a hook is absent. -/
theorem Device.openWith_unhooked {add remove : Bool} (hhooks : (add && remove) = false) :
    d.openWith add remove p b c = d.ret Config.err := by
  simp [Device.openWith, hhooks]

/-- Line 3: the transport answers with a failure. -/
theorem Device.openTransport_refused
    (htransport : Taken d.env.tOpen (Config.freeTOpen d.fresh) d.fresh none handles f) :
    d.openTransport p b c =
      { d with
        trace := d.trace ++ [.tOpen p b none]
        env := { d.env with tOpen := handles }
        fresh := f
        result := some Config.err } := by
  simp [Device.openTransport, Device.callTOpen_of htransport, Device.ret]

/-- Line 4: the device state is not allocated. -/
theorem Device.openAllocate_refused
    (halloc : Taken d.env.alloc (Config.freeAlloc d.fresh) d.fresh false allocs f) :
    d.openAllocate h p b c = Device.openFails { d with env := { d.env with alloc := allocs }, fresh := f } := by
  simp [Device.openAllocate, Device.takeAlloc_of halloc]

/-- Line 6: the installation fails. -/
theorem Device.openInstall_refused
    (hinstall : Taken d.env.install (Config.freeInstall d.fresh) d.fresh false installs f) :
    d.openInstall h p b c = Device.openFails { d with env := { d.env with install := installs }, fresh := f } := by
  simp [Device.openInstall, Device.takeInstall_of hinstall]

/-- A failure once the transport is open adds T_CLOSE to the trace and reports `ERR` (R122). -/
theorem Device.openFails_eq (d : Device) :
    d.openFails = { d with trace := d.trace ++ [.tClose], result := some Config.err } := rfl

end

/-- Settles O48: the hooks are the first thing OPEN looks at. -/
theorem openNeedsBothHooks : Obligations.OpenNeedsBothHooks := by
  intro s k d add remove p b c hd ho hhooks
  refine (opOpen_runs hd ho add remove p b c).trans ?_
  rw [Device.openWith_unhooked hhooks]
  rfl

/-- Settles O47: every answer is granted, and lines 5 to 10 draw the sender's other registers at the key the answers left. -/
theorem openSucceeds : Obligations.OpenSucceeds := by
  intro s k d p b c h handles allocs installs f1 f2 f3 hd ho htransport halloc hinstall
  refine ⟨{ busy := false, type := Config.freeTxType f3, off := Config.freeTxOff f3, rem := Config.freeTxRem f3,
            sdata := [], txs := [] }, rfl, rfl, rfl, (opOpen_runs hd ho true true p b c).trans ?_⟩
  rw [Device.openWith_granted htransport halloc hinstall]
  simp [Device.openSucceeds, Device.initialise, Device.callSetReadSize, Device.record, Device.ret]

/-- Settles O49: the first refusal ends OPEN, and past line 3 it closes the connection. -/
theorem openFailures : Obligations.OpenFailures := by
  intro s k d p b c answer handles f1 hd ho htransport
  have hrun : exec (.openDevice k true true p b c) s = .next (s.setDevice k (d.openTransport p b c)) :=
    opOpen_runs hd ho true true p b c
  refine ⟨?_, ?_⟩
  · rintro rfl
    rw [hrun, Device.openTransport_refused htransport]
  · rintro h alloc allocs f2 rfl halloc
    rw [hrun, Device.openTransport_granted htransport]
    refine ⟨?_, ?_⟩
    · rintro rfl
      rw [Device.openAllocate_refused halloc, Device.openFails_eq]
      simp
    · rintro installs f3 rfl hinstall
      rw [Device.openAllocate_granted halloc, Device.openInstall_refused hinstall, Device.openFails_eq]
      simp

end Sys2Proof.Machine
end

section
/-! The two pass-throughs (R125, R126): the transaction is made, what the handler invokes runs inside, and the operation reports the handler's
status on the device as the handler left it. -/

namespace Sys2Proof.Machine

section
variable {s u : State} {k : Nat} {d e : Device} {a : HandlerAnswer} {rest : List HandlerAnswer} {f : FreeKey}

/-- A handler whose operations answer `u`. -/
theorem runHandler_runs {reading : Option Nat} {cs : List CallerCall} {finish : Device → Device}
    (hu : runCalls reading cs s = .next u) (he : u.devices[k]? = some e) :
    runHandler reading cs k finish s = .next (u.setDevice k (finish e)) := by
  rw [runHandler, hu, andThen_next, withDevice_some he]

theorem opWriteComplete_runs {x : Token} (hd : s.devices[k]? = some d) (ho : d.isOpen = true)
    (ha : Answers d.env.onWriteComplete d.fresh a rest f)
    (hu : runCalls none a.calls
      (s.setDevice k
        { d with
          trace := d.trace ++ [.onWriteComplete d.binding.context x a.status]
          env := { d.env with onWriteComplete := rest }
          fresh := f }) = .next u)
    (he : u.devices[k]? = some e) : opWriteComplete k x s = .next (u.setDevice k (e.ret a.status)) := by
  rw [opWriteComplete, withOpen_open hd ho, Device.takeOnWriteComplete_of ha]
  exact runHandler_runs hu he

theorem opTransportClose_runs (hd : s.devices[k]? = some d) (ho : d.isOpen = true)
    (ha : Answers d.env.onClose d.fresh a rest f)
    (hu : runCalls none a.calls
      (s.setDevice k
        { d with
          trace := d.trace ++ [.onClose d.binding.context a.status]
          env := { d.env with onClose := rest }
          fresh := f }) = .next u)
    (he : u.devices[k]? = some e) : opTransportClose k s = .next (u.setDevice k (e.ret a.status)) := by
  rw [opTransportClose, withOpen_open hd ho, Device.takeOnClose_of ha]
  exact runHandler_runs hu he

end

/-- Settles O55: each pass-through is its handler's run, and then the report of the handler's status. -/
theorem passThroughsRunHandlerInside : Obligations.PassThroughsRunHandlerInside := by
  intro s u k d e x a rest f hd ho he
  exact ⟨fun ha hu => opWriteComplete_runs hd ho ha hu he, fun ha hu => opTransportClose_runs hd ho ha hu he⟩

/-- Settles O52: both instructions are the same operation, and a silent handler leaves the device as the transaction left it. -/
theorem writeCompletePassesThrough : Obligations.WriteCompletePassesThrough := by
  intro i s k d x a rest f hi hd ho ha hquiet
  have hrun := opWriteComplete_runs (x := x) hd ho ha (by rw [hquiet]; rfl) (State.setDevice_get _ hd)
  rw [State.setDevice_setDevice] at hrun
  rcases hi with rfl | rfl
  · exact hrun
  · exact hrun

end Sys2Proof.Machine
end

section
/-! The registry (R127). OPEN and CLOSE set `open` of their own device. Every other update of a device leaves `open` as it is, and so the
registry, as long as no handler of any device invokes an OPEN or a CLOSE; which operations a handler will invoke is carried along with it. -/

namespace Sys2Proof.Machine

/-! ## Membership -/

theorem State.mem_registry {s : State} {j : Nat} : j ∈ s.registry ↔ ∃ d, s.devices[j]? = some d ∧ d.isOpen = true := by
  simp only [State.registry, List.mem_filter, List.mem_range]
  constructor
  · rintro ⟨hlt, ho⟩
    exact ⟨s.devices[j], List.getElem?_eq_getElem hlt, by simpa [hlt] using ho⟩
  · rintro ⟨d, hd, ho⟩
    exact ⟨(List.getElem?_eq_some_iff.mp hd).1, by simp [hd, ho]⟩

section
variable {s : State} {k j : Nat} {d e : Device} (hd : s.devices[k]? = some d)
include hd

theorem State.mem_registry_iff_isOpen : k ∈ s.registry ↔ d.isOpen = true := by
  simp [State.mem_registry, hd]

theorem State.mem_registry_setDevice_same : k ∈ (s.setDevice k e).registry ↔ e.isOpen = true :=
  State.mem_registry_iff_isOpen (State.setDevice_get e hd)

omit hd in
theorem State.mem_registry_setDevice_other (hj : j ≠ k) : j ∈ (s.setDevice k e).registry ↔ j ∈ s.registry := by
  simp only [State.mem_registry, State.setDevice_get_other e s hj]

/-- The registry reads `open` alone. -/
theorem State.registry_setDevice (ho : e.isOpen = d.isOpen) : (s.setDevice k e).registry = s.registry := by
  unfold State.registry
  rw [State.setDevice_length]
  refine List.filter_congr fun j _ => ?_
  by_cases hj : j = k
  · subst hj
    rw [State.setDevice_get e hd, hd, Option.map_some, Option.map_some, ho]
  · rw [State.setDevice_get_other e s hj]

end

/-! ## OPEN and CLOSE -/

/-- OPEN reports `ERR` and leaves `open`, or opens the device and reports `OK` (R120 to R122). -/
theorem Device.openWith_reports (d : Device) (add remove : Bool) (p b c : Token) :
    ((d.openWith add remove p b c).isOpen = d.isOpen ∧ (d.openWith add remove p b c).result = some Config.err) ∨
    ((d.openWith add remove p b c).isOpen = true ∧ (d.openWith add remove p b c).result = some Config.ok) := by
  unfold Device.openWith
  split
  · unfold Device.openTransport
    split
    · unfold Device.openAllocate
      split
      · unfold Device.openInstall
        split
        · exact .inr ⟨rfl, rfl⟩
        · exact .inl (by simp [Device.openFails])
      · exact .inl (by simp [Device.openFails])
    · exact .inl (by simp)
  · exact .inl (by simp)

/-- OPEN opens a closed device exactly when it reports `OK`. -/
theorem Device.openWith_isOpen_iff {d : Device} (ho : d.isOpen = false) (add remove : Bool) (p b c : Token) :
    (d.openWith add remove p b c).isOpen = true ↔ (d.openWith add remove p b c).result = some 0#32 := by
  rcases d.openWith_reports add remove p b c with ⟨hopen, hresult⟩ | ⟨hopen, hresult⟩
  · simp [hopen, hresult, ho, show Config.err ≠ 0#32 by decide]
  · simp [hopen, hresult]

theorem opClose_registry {k : Nat} {s t : State} (h : opClose k s = .next t) :
    k ∈ s.registry ∧ ∀ j, j ∈ t.registry ↔ j ∈ s.registry ∧ j ≠ k := by
  obtain ⟨d, hd, ho, rfl⟩ := opClose_eq_next h
  refine ⟨(State.mem_registry_iff_isOpen hd).mpr ho, fun j => ?_⟩
  by_cases hj : j = k
  · subst hj
    simp [State.mem_registry_setDevice_same hd, Device.closed]
  · simp [State.mem_registry_setDevice_other hj, hj]

theorem opOpen_registry {k : Nat} {add remove : Bool} {p b c : Token} {s t : State}
    (h : opOpen k add remove p b c s = .next t) :
    k ∉ s.registry ∧ ∃ e, t.devices[k]? = some e ∧
      ∀ j, j ∈ t.registry ↔ j ∈ s.registry ∨ (j = k ∧ e.result = some 0#32) := by
  obtain ⟨d, hd, ho, rfl⟩ := opOpen_eq_next h
  have hout : k ∉ s.registry := by simp [State.mem_registry_iff_isOpen hd, ho]
  refine ⟨hout, d.openWith add remove p b c, State.setDevice_get _ hd, fun j => ?_⟩
  by_cases hj : j = k
  · subst hj
    rw [State.mem_registry_setDevice_same hd, Device.openWith_isOpen_iff ho]
    simp [hout]
  · simp [State.mem_registry_setDevice_other hj, hj]

/-! ## The other instructions -/

theorem HandlersFrom.callsSendOnly {d e : Device} (h : HandlersFrom d e) (hd : d.CallsSendOnly) : e.CallsSendOnly := by
  intro a ha
  simp only [List.mem_append] at ha
  refine hd a ?_
  simp only [List.mem_append]
  exact ha.imp (.imp (@h.onRead a) (@h.onWriteComplete a)) (@h.onClose a)

/-- From `s₀` to `s` no device has been opened or closed, and no handler is going to open or close one. -/
structure Steady (s₀ s : State) : Prop where
  registry : s.registry = s₀.registry
  calls : ∀ d ∈ s.devices, d.CallsSendOnly

/-- The operation is a SEND. -/
def IsSend : CallerCall → Prop
  | .openDevice _ _ _ _ _ _ => False
  | .close _ => False
  | .send _ _ _ _ _ => True

theorem isSend_of_ne {c : CallerCall} (hclose : c ≠ .close (callDevice c))
    (hopen : ∀ add remove p b x, c ≠ .openDevice (callDevice c) add remove p b x) : IsSend c := by
  cases c with
  | openDevice dev add remove p b x => exact hopen add remove p b x rfl
  | close dev => exact hclose rfl
  | send dev form type count data => trivial

theorem Device.CallsSendOnly.isSend {d : Device} (h : d.CallsSendOnly) :
    (∀ a ∈ d.env.onRead, ∀ c ∈ a.calls, IsSend c) ∧ (∀ a ∈ d.env.onWriteComplete, ∀ c ∈ a.calls, IsSend c) ∧
      ∀ a ∈ d.env.onClose, ∀ c ∈ a.calls, IsSend c := by
  have hsend (a : HandlerAnswer) (ha : a ∈ d.env.onRead ++ d.env.onWriteComplete ++ d.env.onClose) :
      ∀ c ∈ a.calls, IsSend c := fun c hc => isSend_of_ne (h a ha c hc).1 (h a ha c hc).2
  exact ⟨fun a ha => hsend a (by simp [ha]), fun a ha => hsend a (by simp [ha]), fun a ha => hsend a (by simp [ha])⟩

section
variable {k : Nat} {s₀ s t : State} (hs : Steady s₀ s)
include hs

theorem Steady.get {d : Device} (hd : s.devices[k]? = some d) : d.CallsSendOnly :=
  hs.calls d (List.mem_of_getElem? hd)

theorem Steady.setDevice {d e : Device} (hd : s.devices[k]? = some d) (ho : e.isOpen = d.isOpen) (he : HandlersFrom d e) :
    Steady s₀ (s.setDevice k e) where
  registry := (State.registry_setDevice hd ho).trans hs.registry
  calls f hf := by
    rcases State.setDevice_mem hf with hf | rfl
    · exact hs.calls f hf
    · exact he.callsSendOnly (hs.get hd)

/-- A SEND that a handler invokes, on whichever device. -/
theorem runCall_steady {reading : Option Nat} {c : CallerCall} (hc : IsSend c) (h : runCall reading c s = .next t) :
    Steady s₀ t := by
  obtain ⟨d, hd, -, -, rfl⟩ := runCall_eq_next h
  refine hs.setDevice hd ?_ ((handlersFrom_callEffect d c).trans (.of_env rfl))
  cases c with
  | openDevice dev add remove p b x => exact hc.elim
  | close dev => exact hc.elim
  | send dev form type count data => exact d.send_isOpen form type count data

omit hs in
theorem runHandler_steady {reading : Option Nat} {cs : List CallerCall} {finish : Device → Device}
    (h : runHandler reading cs k finish s = .next t) (hs : Steady s₀ s) (hcs : ∀ c ∈ cs, IsSend c)
    (hopen : ∀ e, (finish e).isOpen = e.isOpen) (henv : ∀ e, (finish e).env = e.env) : Steady s₀ t := by
  obtain ⟨u, e, hu, he, rfl⟩ := runHandler_eq_next h
  have huSteady : Steady s₀ u := runCalls_keeps (fun c hc _ _ hv hrun => runCall_steady hv (hcs c hc) hrun) hs hu
  exact huSteady.setDevice he (hopen e) (.of_env (henv e))

theorem opWriteComplete_steady {n : Token} (h : opWriteComplete k n s = .next t) : Steady s₀ t := by
  obtain ⟨d, hd, -, h⟩ := withOpen_eq_next h
  obtain ⟨-, hwrite, -⟩ := (hs.get hd).isSend
  exact runHandler_steady h
    (hs.setDevice hd d.takeOnWriteComplete_isOpen ((handlersFrom_takeOnWriteComplete d).trans (.of_env rfl)))
    (calls_of_answer d.takeOnWriteComplete_calls hwrite) (fun _ => rfl) fun _ => rfl

theorem opTransportClose_steady (h : opTransportClose k s = .next t) : Steady s₀ t := by
  obtain ⟨d, hd, -, h⟩ := withOpen_eq_next h
  obtain ⟨-, -, hclose⟩ := (hs.get hd).isSend
  exact runHandler_steady h (hs.setDevice hd d.takeOnClose_isOpen ((handlersFrom_takeOnClose d).trans (.of_env rfl)))
    (calls_of_answer d.takeOnClose_calls hclose) (fun _ => rfl) fun _ => rfl

/-- The hand-over of a packet by device `k`, which was `d` before the bytes of the packet came in. -/
theorem handOver_steady {d e : Device} (h : handOver k e s = .next t) (hd : s.devices[k]? = some d)
    (ho : e.isOpen = d.isOpen) (he : HandlersFrom d e) : Steady s₀ t := by
  unfold handOver at h
  split at h
  · cases h
  · obtain ⟨hread, -, -⟩ := (he.callsSendOnly (hs.get hd)).isSend
    exact runHandler_steady h (hs.setDevice hd (e.takeOnRead_isOpen.trans ho) (he.trans (handlersFrom_madeOnRead e)))
      (calls_of_answer e.takeOnRead_calls hread) (fun _ => rfl) fun _ => rfl

theorem opDeliver_steady {bs : List Byte} (h : opDeliver k bs s = .next t) : Steady s₀ t := by
  obtain ⟨d, hd, -, h⟩ := withOpen_eq_next h
  split at h
  next => cases h; exact hs.setDevice hd rfl (.of_env rfl)
  next =>
    split at h
    next => cases h; exact hs.setDevice hd rfl (.of_env rfl)
    next =>
      unfold afterAppend at h
      split at h
      next => cases h; exact hs.setDevice hd rfl (.of_env rfl)
      next =>
        split at h
        next => cases h; exact hs.setDevice hd rfl (.of_env rfl)
        next =>
          split at h
          next => cases h; exact hs.setDevice hd rfl (.of_env rfl)
          next => exact handOver_steady hs h hd rfl (.of_env rfl)

omit hs in
theorem feed_steady {fuel : Nat} {bs : List Byte} (hs : Steady s₀ s) (h : feed k fuel bs s = .next t) : Steady s₀ t := by
  induction fuel generalizing bs s with
  | zero => cases h; exact hs
  | succ fuel ih =>
    cases bs with
    | nil => cases h; exact hs
    | cons b bs =>
      obtain ⟨d, -, -, h⟩ := withOpen_eq_next h
      split at h
      · cases h; exact hs
      · obtain ⟨u, hu, h⟩ := andThen_eq_next.mp h
        exact ih (opDeliver_steady hs hu) h

theorem exec_steady {i : Instr} (hclose : i ≠ .close (instrDevice i))
    (hopen : ∀ add remove p b c, i ≠ .openDevice (instrDevice i) add remove p b c) (h : exec i s = .next t) :
    Steady s₀ t := by
  cases i with
  | frame k type value => exact feed_steady hs h
  | frameRsvdL255 k type value => exact feed_steady hs h
  | openDevice k add remove p b c => exact absurd rfl (hopen add remove p b c)
  | close k => exact absurd rfl hclose
  | deliver k bs => exact opDeliver_steady hs h
  | deliverFail k =>
    obtain ⟨d, hd, -, h⟩ := withOpen_eq_next h
    split at h
    · cases h; exact hs.setDevice hd rfl (.of_env rfl)
    · cases h; exact hs.setDevice hd rfl (.of_env rfl)
  | send k form type count data =>
    obtain ⟨d, hd, -, -, -, rfl⟩ := opSend_eq_next h
    exact hs.setDevice hd (d.send_isOpen form type count data) (handlersFrom_send d form type count data)
  | writeComplete k n => exact opWriteComplete_steady hs h
  | transportClose k => exact opTransportClose_steady hs h
  | onRead k =>
    obtain ⟨d, hd, -, h⟩ := withOpen_eq_next h
    split at h
    · exact handOver_steady hs h hd rfl (.of_env rfl)
    · cases h
  | setReadSize k =>
    obtain ⟨d, hd, -, h⟩ := withOpen_eq_next h
    split at h
    · cases h; exact hs.setDevice hd rfl (.of_env rfl)
    · cases h
  | txWrite k =>
    obtain ⟨d, hd, -, -, -, rfl⟩ := opTxWrite_eq_next h
    exact hs.setDevice hd d.sendChunk_isOpen (handlersFrom_sendChunk d)
  | onWriteComplete k n => exact opWriteComplete_steady hs h
  | onClose k => exact opTransportClose_steady hs h
  | tOpen k p b =>
    obtain ⟨d, hd, -, h⟩ := withClosed_eq_next h
    cases h
    exact hs.setDevice hd (d.callTOpen_isOpen p b) ((handlersFrom_callTOpen d p b).trans (.of_env rfl))
  | tClose k =>
    obtain ⟨d, hd, h⟩ := withDevice_eq_next h
    cases h
    exact hs.setDevice hd rfl (.of_env rfl)

end

/-- Settles O58: CLOSE and OPEN by what they do to their own device, every other instruction by keeping the machine steady. -/
theorem registryMembership : Obligations.RegistryMembership := by
  intro s t k
  refine ⟨opClose_registry, fun add remove p b c => opOpen_registry, ?_⟩
  rintro i hclose hopen rfl hcalls h
  exact (exec_steady ⟨rfl, hcalls⟩ hclose hopen h).registry

end Sys2Proof.Machine
end

section
/-! TRANSPORT_CLOSE with a handler that invokes nothing (R126, D25). -/

namespace Sys2Proof.Machine

/-- With nothing invoked, the handler's status is reported on the device that ON_CLOSE left. -/
theorem opTransportClose_quiet {s : State} {k : Nat} {d : Device} {a : HandlerAnswer} {rest : List HandlerAnswer} {f : FreeKey}
    (hd : s.devices[k]? = some d) (ho : d.isOpen = true) (ha : Answers d.env.onClose d.fresh a rest f) (hquiet : a.calls = []) :
    opTransportClose k s =
      .next (s.setDevice k
        { d with
          trace := d.trace ++ [.onClose d.binding.context a.status]
          env := { d.env with onClose := rest }
          fresh := f
          result := some a.status }) := by
  have hrun := opTransportClose_runs hd ho ha (by rw [hquiet]; rfl) (State.setDevice_get _ hd)
  rwa [State.setDevice_setDevice] at hrun

/-- Settles O53: TRANSPORT_CLOSE and ON_CLOSE are the same operation, here with a silent handler. -/
theorem transportClosePassesThrough : Obligations.TransportClosePassesThrough := by
  rintro i s k d a rest f (rfl | rfl) hd ho ha hquiet
  · exact opTransportClose_quiet hd ho ha hquiet
  · exact opTransportClose_quiet hd ho ha hquiet

end Sys2Proof.Machine
end

section
/-! A DELIVER that ends without a fault makes one SET_READ_SIZE, its last transaction (R81, D11). A handler that runs inside ON_READ can make no
other on the device that reads: of its operations only SEND runs there. -/

namespace Sys2Proof.Machine

/-- A step that sets one device leaves it as it is set. -/
theorem eq_of_next_setDevice {k : Nat} {s t : State} {c d e : Device} (hc : s.devices[k]? = some c)
    (h : (.next (s.setDevice k d) : Result) = .next t) (he : t.devices[k]? = some e) : e = d := by
  cases h
  exact Option.some.inj (he.symm.trans (State.setDevice_get d hc))

/-- Since the device was `d` it has made transactions, and no SET_READ_SIZE among them. -/
def RequestsNothing (d e : Device) : Prop := ∃ made, e.trace = d.trace ++ made ∧ ∀ n, .setReadSize n ∉ made

/-- Since the device was `d` it has made one SET_READ_SIZE, last, with the value of `next_read_size`, and it is not faulted. -/
def EndsWithRequest (d e : Device) : Prop :=
  e.rx.fault = .none ∧ ∃ before, e.trace = d.trace ++ before ++ [.setReadSize e.nextReadSize] ∧ ∀ n, .setReadSize n ∉ before

section
variable {d e f : Device}

theorem RequestsNothing.of_same (h : e.trace = d.trace) : RequestsNothing d e := ⟨[], by simp [h], by simp⟩

theorem RequestsNothing.trans (h : RequestsNothing d e) (h' : RequestsNothing e f) : RequestsNothing d f := by
  obtain ⟨made, htrace, hnone⟩ := h
  obtain ⟨made', htrace', hnone'⟩ := h'
  exact ⟨made ++ made', by rw [htrace', htrace, List.append_assoc], fun n => by simp [hnone n, hnone' n]⟩

theorem RequestsNothing.record {ev : Event} (h : RequestsNothing d e) (hev : ∀ n, ev ≠ .setReadSize n) :
    RequestsNothing d (e.record ev) :=
  h.trans ⟨[ev], rfl, fun n => by simpa using (hev n).symm⟩

/-- SEND makes TX_WRITEs alone (R100, R110). -/
theorem send_requestsNothing (d : Device) (form : SendForm) (type : Byte) (count : Count) (data : List Byte) :
    RequestsNothing d (d.send form type count data) := by
  obtain ⟨writes, htrace, hwrites⟩ := d.send_trace form type count data
  refine ⟨writes, htrace, fun n hn => ?_⟩
  obtain ⟨bytes, ok, hev⟩ := hwrites _ hn
  cases hev

/-- On an open device that a handler inside ON_READ may not close, the only operation it can run is SEND (R39, R128, R183). -/
theorem callEffect_requestsNothing {c : CallerCall} (ho : d.isOpen = true) (hr : callRuns c d)
    (hc : c ≠ .close (callDevice c)) : RequestsNothing d (callEffect c d) := by
  cases c with
  | openDevice dev add remove p b x => simp [callRuns, ho] at hr
  | close dev => exact absurd rfl hc
  | send dev form type count data => exact send_requestsNothing d form type count data

/-- A device that requests more after transactions of other kinds. -/
theorem RequestsNothing.requestsMore (h : RequestsNothing d e) (hf : e.rx.fault = .none) (r : Status) :
    EndsWithRequest d (e.requestsMore.ret r) := by
  obtain ⟨made, htrace, hnone⟩ := h
  exact ⟨hf, made, congrArg (· ++ [Event.setReadSize e.nextReadSize]) htrace, hnone⟩

/-- What follows ON_READ on an open unfaulted device is to await a header and to request it (R77). -/
theorem Device.afterOnRead_eq_requestsMore (ho : d.isOpen = true) (hf : d.rx.fault = .none) (r : Status) :
    d.afterOnRead r = (d.setAcc 0).requestsMore.ret r := by
  rw [Device.requestsMore, Device.nextReadSize_header (d := d.setAcc 0) ho hf (by simp)]
  rfl

end

section
variable {k : Nat} {s t : State} {d e : Device}

/-- The handler of ON_READ on device `k`, whatever it invokes. -/
theorem runCalls_requestsNothing {cs : List CallerCall} (hd : s.devices[k]? = some d) (ho : d.isOpen = true)
    (h : runCalls (some k) cs s = .next t) (he : t.devices[k]? = some e) : RequestsNothing d e := by
  suffices hkept : ∃ e, t.devices[k]? = some e ∧ e.isOpen = true ∧ RequestsNothing d e by
    obtain ⟨e', he', -, hnone⟩ := hkept
    obtain rfl : e = e' := by simpa [he] using he'
    exact hnone
  refine runCalls_keeps (P := fun u => ∃ e, u.devices[k]? = some e ∧ e.isOpen = true ∧ RequestsNothing d e)
    (fun c _ u v hu hv => ?_) ⟨d, hd, ho, .of_same rfl⟩ h
  obtain ⟨e, he, hopen, hnone⟩ := hu
  obtain ⟨f, hf, hr, hclose, rfl⟩ := runCall_eq_next hv
  by_cases hk : callDevice c = k
  · rw [hk] at hf hclose ⊢
    obtain rfl : e = f := by simpa [he] using hf
    have hc : c ≠ .close (callDevice c) := fun hc => hclose (hk ▸ hc) rfl
    exact ⟨_, State.setDevice_get _ he, (callEffect_reading hopen hr hc).isOpen.trans hopen,
      (hnone.trans (callEffect_requestsNothing hopen hr hc)).record fun _ => Event.noConfusion⟩
  · exact ⟨e, by rw [State.setDevice_get_other _ _ (Ne.symm hk), he], hopen, hnone⟩

/-- The hand-over makes ON_READ, lets the handler run, and requests the next header (R77). -/
theorem handOver_endsWithRequest {c : Device} (hc : s.devices[k]? = some c) (ho : d.isOpen = true) (hf : d.rx.fault = .none)
    (h : handOver k d s = .next t) (he : t.devices[k]? = some e) : EndsWithRequest d e := by
  obtain ⟨u, g, hu, hg, hreading, rfl⟩ := handOver_reading hc ho h
  rw [State.setDevice_get _ hg] at he
  cases he
  have hmadeOpen : d.madeOnRead.isOpen = true := by simpa [Device.madeOnRead] using ho
  have hmadeFault : d.madeOnRead.rx.fault = .none := by simpa [Device.madeOnRead] using hf
  have hgFault : g.rx.fault = .none := by rw [hreading.rx, hmadeFault]
  have hmade : RequestsNothing d d.madeOnRead :=
    .record (.of_same d.takeOnRead_trace) fun _ => Event.noConfusion
  have hg' : RequestsNothing d g := hmade.trans (runCalls_requestsNothing (State.setDevice_get _ hc) hmadeOpen hu hg)
  rw [Device.afterOnRead_eq_requestsMore (hreading.isOpen.trans hmadeOpen) hgFault]
  exact RequestsNothing.requestsMore (e := g.setAcc 0) hg' hgFault _

/-- Lines 5 to 9 of DELIVER either raise PACKET_OVERRUN or end with the request (R74 to R79). -/
theorem afterAppend_endsWithRequest {c : Device} (hc : s.devices[k]? = some c) (ho : d.isOpen = true) (hf : d.rx.fault = .none)
    (h : afterAppend k d s = .next t) (he : t.devices[k]? = some e) :
    (e.rx.fault ≠ .none ∧ e.trace = d.trace) ∨ EndsWithRequest d e := by
  by_cases hrest : d.rx.acc.toNat < 2 ∨ d.got < d.frameLength
  · obtain rfl := eq_of_next_setDevice hc ((afterAppend_requests ho hf fun _ _ => hrest).symm.trans h) he
    exact .inr ((RequestsNothing.of_same rfl).requestsMore hf _)
  · obtain ⟨h2, hgot⟩ := not_or.mp hrest
    by_cases hover : d.frameLength < d.got
    · obtain rfl := eq_of_next_setDevice hc ((afterAppend_overruns (Nat.le_of_not_lt h2) hover).symm.trans h) he
      exact .inl ⟨Cause.noConfusion, rfl⟩
    · rw [afterAppend_complete (Nat.le_of_not_lt h2) (by omega)] at h
      exact .inr (handOver_endsWithRequest hc ho hf h he)

end

/-- Settles O25: DELIVER is refused by a latched fault or by the capacity check, or it goes on to lines 5 to 9. -/
theorem deliverEndsWithRequest : Obligations.DeliverEndsWithRequest := by
  intro s t k d e bs hd h he
  obtain ⟨d', hd', ho, -⟩ := withOpen_eq_next h
  obtain rfl : d = d' := by simpa [hd] using hd'
  by_cases hf : d.rx.fault = .none
  · by_cases hl : 256 < d.rx.acc.toNat + bs.length
    · obtain rfl := eq_of_next_setDevice hd ((opDeliver_overflows hd ho hf hl).symm.trans h) he
      exact .inl ⟨Cause.noConfusion, rfl⟩
    · have happend := (opDeliver_appends hd ho hf (Nat.le_of_not_lt hl)).symm.trans h
      exact afterAppend_endsWithRequest (d := (d.consume bs).append bs) hd ho hf happend he
  · obtain rfl := eq_of_next_setDevice hd ((opDeliver_faulted hd ho hf).symm.trans h) he
    exact .inl ⟨hf, rfl⟩

end Sys2Proof.Machine
end

section
/-! CLOSE (R123), and a handler that closes its own device: refused from inside ON_READ (R183, D19), and run from inside ON_CLOSE (D25). -/

namespace Sys2Proof.Machine

/-- A closed device reads `next_read_size` = 0 (R20, D11), and its receive machine is Closed (R13). -/
theorem Device.reads_of_closed {d : Device} (ho : d.isOpen = false) : d.nextReadSize = 0#8 ∧ d.rxState = .closed := by
  simp [Device.nextReadSize, Device.rxState, ho]

/-- Settles O50: the device CLOSE leaves, whatever the device before was doing. -/
theorem closeClosesDevice : Obligations.CloseClosesDevice := by
  intro s k d hd ho
  obtain ⟨hsize, hstate⟩ := Device.reads_of_closed (d := d.closed) rfl
  exact ⟨d.closed, opClose_runs hd ho, rfl, rfl, rfl, rfl, rfl, hsize, hstate, rfl, rfl, d.closed_inv⟩

/-! ## Inside ON_READ -/

section
variable {k : Nat} {s : State} {d : Device} {a : HandlerAnswer} {rest : List HandlerAnswer} {f : FreeKey}

/-- A handler inside ON_READ that closes the device that reads, sooner or later, does not run to its end (R183). -/
theorem runCalls_close_ne_next {cs : List CallerCall} (hclose : .close k ∈ cs) (t : State) :
    runCalls (some k) cs s ≠ .next t := by
  induction cs generalizing s with
  | nil => simp at hclose
  | cons c cs ih =>
    intro h
    obtain ⟨u, hu, h⟩ := andThen_eq_next.mp h
    rcases List.mem_cons.mp hclose with rfl | hclose
    · obtain ⟨-, -, -, hother, -⟩ := runCall_eq_next hu
      exact hother rfl rfl
    · exact ih hclose h

theorem runCalls_close_first (cs : List CallerCall) : runCalls (some k) (.close k :: cs) s = .refused .closeInsideOnRead := by
  simp [runCalls, runCall, callDevice, andThen]

/-- The hand-over to a handler that closes the device (R183, D19). -/
theorem handOver_close (hl : d.frameLength ≤ 254) (ha : Answers d.env.onRead d.fresh a rest f) (hclose : .close k ∈ a.calls) :
    (∀ t, handOver k d s ≠ .next t) ∧
      ∀ cs, a.calls = .close k :: cs → handOver k d s = .refused .closeInsideOnRead := by
  have hcalls : d.takeOnRead.1.calls = a.calls := by rw [Device.takeOnRead_of ha]
  refine ⟨fun t h => ?_, fun cs hfirst => ?_⟩
  · obtain ⟨-, u, e, hu, -⟩ := handOver_eq_next h
    exact runCalls_close_ne_next (hcalls ▸ hclose) u hu
  · rw [handOver, if_neg (by simp; omega), hcalls, hfirst, runHandler, runCalls_close_first]
    rfl

/-- A delivery that completes the frame is the hand-over of a packet that fits the buffer (R77). -/
theorem opDeliver_handsOver {bs : List Byte} (hd : s.devices[k]? = some d) (ho : d.isOpen = true) (hf : d.rx.fault = .none)
    (h2 : 2 ≤ d.rx.acc.toNat + bs.length) (hl : d.rx.acc.toNat + bs.length ≤ 256)
    (hgot : d.rx.acc.toNat + bs.length - 2 = ((d.consume bs).append bs).frameLength) :
    opDeliver k bs s = handOver k ((d.consume bs).append bs) s := by
  rw [opDeliver_appends hd ho hf hl,
    afterAppend_complete (h2.trans_eq (Device.append_acc hl).symm) ((Device.append_got hl).trans hgot)]

end

/-- Settles O32: the DELIVER and the ON_READ row are the hand-over, whose handler is stopped at the CLOSE. -/
theorem closeInsideOnReadRefused : Obligations.CloseInsideOnReadRefused := by
  intro s k d bs a rest f hd ho hf hwf h2 hl ha hclose
  refine ⟨⟨_, Memory.putRun_appended hwf hl, fun hgot => ?_⟩, fun hin hgot => ?_⟩
  · have hdeliver : exec (.deliver k bs) s = handOver k ((d.consume bs).append bs) s :=
      opDeliver_handsOver hd ho hf h2 hl hgot
    have hL : ((d.consume bs).append bs).frameLength = d.rx.acc.toNat + bs.length - 2 := hgot.symm
    rw [hdeliver]
    exact handOver_close (by omega) ha hclose
  · have hread : exec (.onRead k) s = handOver k d s := execOnRead_ready hd ho hf hin hgot
    have hL : d.frameLength = d.rx.acc.toNat - 2 := hgot.symm
    rw [hread]
    exact handOver_close (by omega) ha hclose

/-! ## Inside ON_CLOSE -/

/-- A CLOSE that a handler outside ON_READ invokes by itself: it runs, and its result goes back to the handler (R152). -/
theorem runCalls_close {k : Nat} {s : State} {d : Device} (hd : s.devices[k]? = some d) (ho : d.isOpen = true) :
    runCalls none [.close k] s = .next (s.setDevice k (d.closed.record (.returned d.closed.result))) := by
  have hnote := withDevice_some (State.setDevice_get d.closed hd)
  simp [runCalls, runCall, callOperation, callDevice, opClose_runs hd ho, noteReturn, hnote]

/-- Settles O54: the one call of the handler is the CLOSE, which runs on the device as ON_CLOSE leaves it. -/
theorem closeInsideOnClose : Obligations.CloseInsideOnClose := by
  intro s k d r rest hd ho ha
  have hmade := State.setDevice_get
    { d with trace := d.trace ++ [.onClose d.binding.context r], env := { d.env with onClose := rest } } hd
  have hrun := opTransportClose_runs hd ho (.inl ⟨ha, rfl⟩) (runCalls_close hmade ho) (State.setDevice_get _ hmade)
  refine ⟨_, hrun.trans (by simp only [State.setDevice_setDevice]; rfl), rfl, rfl, rfl, ?_⟩
  simp [Device.closed]

end Sys2Proof.Machine
end

section
/-! Requests that have no step: records that are no instruction (R61), operations and transactions outside the states in which the block makes
them (R110 to R113, R128), and frames on a closed or faulted device (R67, D22). -/

namespace Sys2Proof.Machine

/-- Settles O1: each device of the reset state is as at power-on. -/
theorem resetIsClosed : Obligations.ResetIsClosed := by
  refine ⟨by decide, fun d hd => ?_⟩
  obtain ⟨k, -, rfl⟩ := List.mem_map.mp hd
  obtain ⟨hsize, hstate⟩ := Device.reads_of_closed (d := Device.powerOn k) rfl
  exact ⟨rfl, rfl, rfl, rfl, hsize, hstate⟩

/-! ## Decoding -/

theorem step_of_decode_error {s t : State} {r : Request} {e : DecodeError} (hfetch : fetch s = some (r, t))
    (hdecode : decode r = .error e) : step s = .refused (.undecodable e) := by
  simp only [step, hfetch, hdecode]

/-- Settles O6: the request is fetched and does not decode. -/
theorem stepRefusesUndecodable : Obligations.StepRefusesUndecodable := by
  intro s r rest e hinbox hdecode
  exact step_of_decode_error (fetch_of_inbox_cons hinbox) hdecode

/-- The record of a code, its device given as the byte it is (R61). -/
theorem decode_code (code : BitVec 4) (dev : Byte) (operands : List Byte) :
    decode ⟨.operation, (0#4 ++ code : BitVec 8) :: dev :: operands⟩ = decodeCode code dev.toNat operands := by
  have hrecord := decode_operationRecord code operands dev.isLt
  rwa [operationRecord, byteOf_of_toNat] at hrecord

/-- Settles O12: no code of the table is 0x7 or 0xF. -/
theorem unusedCodesRejected : Obligations.UnusedCodesRejected := by
  intro dev operands
  exact ⟨decode_code 0x7#4 dev operands, decode_code 0xF#4 dev operands⟩

/-! ## Open and closed devices -/

/-- A frame has a first byte, whose delivery asks for an open device (R128). -/
theorem feedAll_closed {k : Nat} {s : State} {d : Device} {b : Byte} {bs : List Byte} (hd : s.devices[k]? = some d)
    (ho : d.isOpen = false) : feedAll k (b :: bs) s = .refused .deviceClosed :=
  withOpen_closed hd ho _

/-- Settles O13: the operations ask for an open device, OPEN and T_OPEN for a closed one, before anything else. -/
theorem lifecycleRefusals : Obligations.LifecycleRefusals := by
  intro s k d hd
  refine ⟨fun ho bs form type count x => ?_, fun ho add remove p b c => ?_⟩
  · have hrefused := withOpen_closed hd ho
    exact ⟨hrefused _, hrefused _, hrefused _, hrefused _, hrefused _, hrefused _, hrefused _, hrefused _, hrefused _,
      hrefused _, hrefused _, feedAll_closed hd ho, feedAll_closed hd ho⟩
  · exact ⟨withClosed_open hd ho _, withClosed_open hd ho _⟩

theorem Device.of_packetReady {d : Device} (ho : d.isOpen = true) (h : d.rxState = .packetReady) :
    d.rx.fault = .none ∧ 2 ≤ d.rx.acc.toNat ∧ d.got = d.frameLength := by
  rcases Device.rxState_cases ho with ⟨-, hs⟩ | ⟨-, -, hs⟩ | ⟨-, -, -, hs⟩ | ⟨hf, h2, hgot, -⟩ | ⟨-, -, -, hs⟩
  · cases hs.symm.trans h
  · cases hs.symm.trans h
  · cases hs.symm.trans h
  · exact ⟨hf, h2, hgot⟩
  · cases hs.symm.trans h

theorem Device.of_waiting {d : Device} (ho : d.isOpen = true) (h : d.rxState = .awaitingHeader ∨ d.rxState = .awaitingPayload) :
    d.rx.fault = .none ∧ (d.rx.acc.toNat < 2 ∨ d.got < d.frameLength) := by
  rcases Device.rxState_cases ho with ⟨-, hs⟩ | ⟨hf, h2, -⟩ | ⟨hf, -, hmore, -⟩ | ⟨-, -, -, hs⟩ | ⟨-, -, -, hs⟩
  · simp [hs] at h
  · exact ⟨hf, .inl h2⟩
  · exact ⟨hf, .inr hmore⟩
  · simp [hs] at h
  · simp [hs] at h

/-- Settles O14: each condition is checked on the open device before anything is done to it. -/
theorem enablingConditions : Obligations.EnablingConditions := by
  intro s k d hd ho
  have hopen := withOpen_open hd ho
  refine ⟨fun form type count data => ⟨fun hbusy => ?_, fun hidle hdata => ?_⟩, fun hidle => ?_, fun hready => ?_, fun hdue => ?_⟩
  · exact (hopen _).trans (if_pos hbusy)
  · exact (hopen _).trans ((if_neg (by simp [hidle])).trans (if_pos hdata))
  · exact (hopen _).trans (if_pos hidle)
  · exact (hopen _).trans (if_neg fun hstate => hready (Device.of_packetReady ho hstate))
  · exact (hopen _).trans (if_neg fun hstate => hdue (Device.of_waiting ho hstate))

/-! ## Faults -/

/-- Settles O23: the device is open and no fault is latched, so the failure is. -/
theorem deliverFailLatches : Obligations.DeliverFailLatches := by
  intro s k d hd ho hf
  exact (withOpen_open hd ho _).trans (if_neg (by simp [hf]))

/-- FEED ends at once on a faulted device (R67). -/
theorem feed_faulted {k fuel : Nat} {bs : List Byte} {s : State} {d : Device} (hd : s.devices[k]? = some d)
    (ho : d.isOpen = true) (hf : d.rx.fault ≠ .none) : feed k fuel bs s = .next s := by
  cases fuel with
  | zero => rfl
  | succ fuel =>
    cases bs with
    | nil => rfl
    | cons b bs => rw [feed_cons hd ho, if_pos (d.faulted_iff.mpr hf)]

/-- Settles O37: both frames are fed to a faulted device. -/
theorem faultedDeviceTakesNoFrame : Obligations.FaultedDeviceTakesNoFrame := by
  intro s k d type value hd ho hf
  exact ⟨feed_faulted hd ho hf, feed_faulted hd ho hf⟩

end Sys2Proof.Machine
end
